-- ==== Sys2Proof/Word.lean ====
section
/-! DEFINITION. The two word sizes of the PH48's frames and registers: the byte of a frame (chapter 11)
and the 16-bit value, counter and stamp (R21, R43, R150, R176). -/

namespace Sys2Proof

/-- One byte of a frame on either link (chapter 11). -/
abbrev Byte := BitVec 8

/-- A 16-bit quantity: a point value, a counter, the interval count, a frame check. -/
abbrev Word := BitVec 16

end Sys2Proof
end

