-- ==== Sys2Proof/Config.lean ====
section
/-! DEFINITION. The free values: what the manual leaves open and a PH48 settles in a way the model does not know.
Neither has a body, so nothing can be proved of the value it takes. Each is applied to the counter
`State.freeIndex`, which the model advances at every use, so that two uses may differ. -/

namespace Sys2Proof.Config

/-- R43: the records of claim aging, stage aging and accrual at one interval expiry "may enter the exception
queue in any order relative to one another". Each call says which of the three groups gives the next record
(0 claims, 1 stages, 2 accrual, taken modulo 3). Assumption log 3. -/
opaque recordGroup : Nat → Nat

/-- Section 0.5: the manual gives the result for each order of two events but does not say which of two
timers that run out at the same moment is taken first. True: the phase event is taken before the timer of
the drop bus. Assumption log 4. -/
opaque phaseFirst : Nat → Bool

end Sys2Proof.Config
end

