-- ==== Sys2Proof/Syntax.lean ====
section
/-! DEFINITION. The vocabulary of the PH48 and its commands: one constructor of `Instr` per row of
spec/opcode_table.json. A command is an event at the part: a frame received on a link, the end of a
transmission, a timer running out, a pin, or one of the part's own steps. -/

namespace Sys2Proof

/-! ## Who and where -/

/-- An originator number 0..3 (R66). -/
abbrev Originator := Fin 4

/-- A node of the drop bus; index `i` stands for node address `i + 1`, so that every value is one of the
48 addresses of R1. -/
abbrev NodeIdx := Fin 48

/-- A point index 0..15 within a node (R3). -/
abbrev PointIdx := Fin 16

/-! ## Names the manual writes in capitals -/

/-- Node states (R8). -/
inductive NodeState | absent | parked | live | lapsed | silent
  deriving DecidableEq, Repr

/-- Hold classes (R21). -/
inductive HoldClass | relaxed | standard | tight | dropped
  deriving DecidableEq, Repr

/-- Segment modes (R153). -/
inductive Mode | run | draining | halted
  deriving DecidableEq, Repr

/-- Stage states (R119). -/
inductive StageState | closed | opened | queued | committing
  deriving DecidableEq, Repr

/-- Claim states (R103). -/
inductive ClaimState | intact | broken
  deriving DecidableEq, Repr

/-- The write conditions (R94). -/
inductive Condition | overrange | conflict | broken
  deriving DecidableEq, Repr

/-- Potency of a write condition (R94). -/
inductive Potency | potent | impotent
  deriving DecidableEq, Repr

/-- Arbitration modes (R37). -/
inductive ArbMode | fixed | rotate | lead
  deriving DecidableEq, Repr

/-- Commit pace (R39). -/
inductive CommitPace | burst | yield
  deriving DecidableEq, Repr

/-- The requesters of the arbiter (R34). -/
inductive Requester | fwd | cmt | rnw
  deriving DecidableEq, Repr

/-- Renewal levels (R49). -/
inductive Level | low | high | panic
  deriving DecidableEq, Repr

/-- The status vocabulary (R81, Table 11-9). -/
inductive Status
  | ok | malformed | notPermitted | offline | busy | nodeState | undeclared | badBit | overrange
  | unset | conflict | claimed | claimFull | noClaim | broken | stageBusy | stageFull | exhausted
  | empty | noReply | nodeRefused | committed | commitFailed | aborted | inUse | mode | badParam
  deriving DecidableEq, Repr

/-- The notice flags (R146). -/
inductive NoticeFlag | excPending | excLost | counterWrap | poolShort | halted
  deriving DecidableEq, Repr

/-- The eleven counters (R150), in the order of its table. -/
inductive Counter
  | trunkCrcErrors | trunkMalformed | responsesLost | requestsBusy | potentRefusals | impotentWrites
  | dropNoReply | dropReplyFaults | renewalsAccepted | exceptionsLost | stageExhausted
  deriving DecidableEq, Repr

/-- The sixteen parameters (R168), in the order of their identifiers. -/
inductive ParamId
  | renewalInterval | stagger | highWatermark | panicWatermark | wakeDebits | replyWindowCode
  | idleWindow | arbMode | commitPace | claimTimeout | stageTimeout | overrangePotency
  | conflictPotency | brokenPotency | noticeOriginator | managerSet
  deriving DecidableEq, Repr

/-- The request kinds (R69, R166, Table 11-8). -/
inductive ReqKind
  | write | modify | read | release | test | claim | unclaim | stage
  | commit | discard
  | configureNode | removeNode | parkNode | unparkNode | nodeStatus | setParameters | readParameters
  | setMode | flush | fullReset | readStatus | readExceptions | readNotices | setNoticeMask
  | readCounters
  deriving DecidableEq, Repr

/-! ## What a request body says -/

/-- A point and a value (section 11.2). -/
structure Item where
  point : PointIdx
  value : Word
  deriving DecidableEq, Repr

/-- The operations of MODIFY (R89). -/
inductive BitOp | set | clear | toggle | reverse
  deriving DecidableEq, Repr

/-- One declaration of CONFIGURE NODE (R10). -/
structure Decl where
  point : PointIdx
  width : Nat
  held : Bool
  deriving DecidableEq, Repr

/-- A mode SET MODE may ask for (R154). -/
inductive ModeRequest | run | drain
  deriving DecidableEq, Repr

/-! ## Frames as received -/

/-- A trunk request frame whose frame check has passed (section 11.2, R177), less its kind byte: the two
fields of byte 0, the tag, the body length byte as it stands in the frame, and the bytes received between
it and the frame check. Nothing of the body has been checked yet. -/
structure Request where
  originator : Originator
  destination : BitVec 6
  tag : Byte
  length : Byte
  body : List Byte
  deriving DecidableEq, Repr

/-! ## The commands -/

/-- The commands of the part, one per row of spec/opcode_table.json. A row that is a received frame carries
the frame; every other row has no operand. -/
inductive Instr
  | powerOn
  | resetAsserted
  | resetReleased
  | fullResetTaken
  /-- A trunk frame, whole as received; `cutShort` marks a character-framing error (R67). -/
  | trunkCrcFailure (frame : List Byte) (cutShort : Bool)
  /-- A well-checked trunk frame with its kind byte (R68). -/
  | unknownKindFrame (kind : Byte) (rq : Request)
  /-- A trunk frame, whole as received (R84). -/
  | closingFrameDiscarded (frame : List Byte)
  | write (rq : Request)
  | modify (rq : Request)
  | read (rq : Request)
  | release (rq : Request)
  | test (rq : Request)
  | claim (rq : Request)
  | unclaim (rq : Request)
  | stage (rq : Request)
  | commit (rq : Request)
  | discard (rq : Request)
  | configureNode (rq : Request)
  | removeNode (rq : Request)
  | parkNode (rq : Request)
  | unparkNode (rq : Request)
  | nodeStatus (rq : Request)
  | setParameters (rq : Request)
  | readParameters (rq : Request)
  | setMode (rq : Request)
  | flush (rq : Request)
  | fullReset (rq : Request)
  | readStatus (rq : Request)
  | readExceptions (rq : Request)
  | readNotices (rq : Request)
  | setNoticeMask (rq : Request)
  | readCounters (rq : Request)
  | trunkFrameTransmitted
  | arbiterDecision
  | idleWindowElapsed
  | unicastTransmissionEnd
  | takeTransmissionEnd
  | abandonTransmissionEnd
  | clearTransmissionEnd
  /-- A frame received on the drop bus, whole (R28, R178). -/
  | dropReplyTaken (frame : List Byte)
  /-- A frame received on the drop bus, whole (R29). -/
  | freeFrameReceived (frame : List Byte)
  | replyWindowExpiry
  | phaseEvent
  | intervalExpiry
  | commitTaken
  | drainEnd
  deriving DecidableEq, Repr

end Sys2Proof
end

