-- ==== Sys2Proof/Decode.lean ====
section
/-! DEFINITION. Reading the frames of both links and the code tables of chapter 11: frame check and byte order
(R176), the trunk request frame (R177), the request bodies of Table 11-2, the drop reply (R178), the codes of
Tables 11-8 to 11-14; and beside each reader the layout it reads. The opcode table gives its rows no bits, so
`decodeTableWord` spells no command. -/

namespace Sys2Proof

/-! ## Codes of chapter 11 -/

/-- Table 11-8. -/
def ReqKind.code : ReqKind → Byte
  | .write => 0x01 | .modify => 0x02 | .read => 0x03 | .release => 0x04
  | .test => 0x05 | .claim => 0x06 | .unclaim => 0x07 | .stage => 0x08
  | .commit => 0x10 | .discard => 0x11
  | .configureNode => 0x20 | .removeNode => 0x21 | .parkNode => 0x22 | .unparkNode => 0x23
  | .nodeStatus => 0x24 | .setParameters => 0x25 | .readParameters => 0x26 | .setMode => 0x27
  | .flush => 0x28 | .fullReset => 0x29 | .readStatus => 0x2A | .readExceptions => 0x2B
  | .readNotices => 0x2C | .setNoticeMask => 0x2D | .readCounters => 0x2E

/-- All request kinds of Table 11-8. -/
def ReqKind.all : List ReqKind :=
  [.write, .modify, .read, .release, .test, .claim, .unclaim, .stage, .commit, .discard,
   .configureNode, .removeNode, .parkNode, .unparkNode, .nodeStatus, .setParameters,
   .readParameters, .setMode, .flush, .fullReset, .readStatus, .readExceptions, .readNotices,
   .setNoticeMask, .readCounters]

/-- The request kind a kind byte names, if it names one (R68, Table 11-8). -/
def ReqKind.ofCode? (b : Byte) : Option ReqKind :=
  ReqKind.all.find? fun k => k.code == b

/-- The NOTICE code, which no request kind uses (Table 11-8). -/
def noticeCode : Byte := 0x7F

/-- R177: the kind byte a response echoes; 0x7F is replaced by 0x00. -/
def echoKind (b : Byte) : Byte := if b = noticeCode then 0x00 else b

/-- The forwarded kinds (R69). -/
def ReqKind.forwarded : ReqKind → Bool
  | .write | .modify | .read | .release => true
  | .test | .claim | .unclaim | .stage | .commit | .discard | .configureNode | .removeNode
  | .parkNode | .unparkNode | .nodeStatus | .setParameters | .readParameters | .setMode | .flush
  | .fullReset | .readStatus | .readExceptions | .readNotices | .setNoticeMask
  | .readCounters => false

/-- The node kinds (R69): a request of such a kind is addressed to a node. -/
def ReqKind.nodeKind : ReqKind → Bool
  | .write | .modify | .read | .release | .test | .claim | .unclaim | .stage => true
  | .commit | .discard | .configureNode | .removeNode | .parkNode | .unparkNode | .nodeStatus
  | .setParameters | .readParameters | .setMode | .flush | .fullReset | .readStatus
  | .readExceptions | .readNotices | .setNoticeMask | .readCounters => false

/-- Table 11-9. -/
def Status.code : Status → Byte
  | .ok => 0x00 | .malformed => 0x01 | .notPermitted => 0x02 | .offline => 0x03 | .busy => 0x04
  | .nodeState => 0x05 | .undeclared => 0x06 | .badBit => 0x07 | .overrange => 0x08
  | .unset => 0x09 | .conflict => 0x0A | .claimed => 0x0B | .claimFull => 0x0C
  | .noClaim => 0x0D | .broken => 0x0E | .stageBusy => 0x0F | .stageFull => 0x10
  | .exhausted => 0x11 | .empty => 0x12 | .noReply => 0x13 | .nodeRefused => 0x14
  | .committed => 0x15 | .commitFailed => 0x16 | .aborted => 0x17 | .inUse => 0x18
  | .mode => 0x19 | .badParam => 0x1A

/-- The status that names a write condition (R98, Table 11-5 bytes 23..28). -/
def Condition.status : Condition → Status
  | .overrange => .overrange | .conflict => .conflict | .broken => .broken

/-- Table 11-14, classes. -/
def HoldClass.code : HoldClass → Byte
  | .relaxed => 0x00 | .standard => 0x01 | .tight => 0x02 | .dropped => 0x03

/-- The class a class byte names, if it names one (R178). -/
def HoldClass.ofCode? (b : Byte) : Option HoldClass :=
  [HoldClass.relaxed, .standard, .tight, .dropped].find? fun c => c.code == b

/-- Table 11-14, node states. -/
def NodeState.code : NodeState → Byte
  | .absent => 0x00 | .parked => 0x01 | .live => 0x02 | .lapsed => 0x03 | .silent => 0x04

/-- Table 11-14, modes. -/
def Mode.code : Mode → Byte
  | .run => 0x01 | .draining => 0x02 | .halted => 0x03

/-- The stage state codes under Table 11-5. -/
def StageState.code : StageState → Byte
  | .closed => 0x00 | .opened => 0x01 | .queued => 0x02 | .committing => 0x03

/-- Table 11-11, identifiers. -/
def ParamId.code : ParamId → Byte
  | .renewalInterval => 0x01 | .stagger => 0x02 | .highWatermark => 0x03
  | .panicWatermark => 0x04 | .wakeDebits => 0x05 | .replyWindowCode => 0x06
  | .idleWindow => 0x07 | .arbMode => 0x08 | .commitPace => 0x09 | .claimTimeout => 0x0A
  | .stageTimeout => 0x0B | .overrangePotency => 0x0C | .conflictPotency => 0x0D
  | .brokenPotency => 0x0E | .noticeOriginator => 0x0F | .managerSet => 0x10

/-- All parameters, in identifier order (R171). -/
def ParamId.all : List ParamId :=
  [.renewalInterval, .stagger, .highWatermark, .panicWatermark, .wakeDebits, .replyWindowCode,
   .idleWindow, .arbMode, .commitPace, .claimTimeout, .stageTimeout, .overrangePotency,
   .conflictPotency, .brokenPotency, .noticeOriginator, .managerSet]

/-- The parameter an identifier byte names, if it names one (R177). -/
def ParamId.ofCode? (b : Byte) : Option ParamId :=
  ParamId.all.find? fun p => p.code == b

/-- All counters, in the order of the R150 table. -/
def Counter.all : List Counter :=
  [.trunkCrcErrors, .trunkMalformed, .responsesLost, .requestsBusy, .potentRefusals,
   .impotentWrites, .dropNoReply, .dropReplyFaults, .renewalsAccepted, .exceptionsLost,
   .stageExhausted]

/-- The operation codes of MODIFY (Table 11-2). -/
def BitOp.code : BitOp → Byte
  | .set => 0x01 | .clear => 0x02 | .toggle => 0x03 | .reverse => 0x04

/-- The operation an operation code names, if it names one (R68). -/
def BitOp.ofCode? (b : Byte) : Option BitOp :=
  [BitOp.set, .clear, .toggle, .reverse].find? fun o => o.code == b

/-! ## Frame check and byte order (R176) -/

/-- A number as one byte. -/
def byteOf (n : Nat) : Byte := BitVec.ofNat 8 n

/-- Most significant byte first (R176). -/
def wordBytes (w : Word) : List Byte := [byteOf (w.toNat / 256), byteOf w.toNat]

/-- The 16-bit field whose most significant byte is `hi` (R176). -/
def wordOf (hi lo : Byte) : Word := BitVec.ofNat 16 (hi.toNat * 256 + lo.toNat)

/-- One bit of the CRC: generator x^16+x^12+x^5+1. -/
def crcBit (crc : Word) : Word := if crc.msb then (crc <<< 1) ^^^ 0x1021#16 else crc <<< 1

/-- One byte of the CRC, most significant bit first. -/
def crcByte (crc : Word) (b : Byte) : Word :=
  (crcBit ∘ crcBit ∘ crcBit ∘ crcBit ∘ crcBit ∘ crcBit ∘ crcBit ∘ crcBit)
    (crc ^^^ (b.setWidth 16 <<< 8))

/-- The frame check over some bytes, from 0xFFFF (R176). -/
def crc16 (bs : List Byte) : Word := bs.foldl crcByte 0xFFFF#16

/-- A frame with its check put at its end (R176). -/
def withCheck (bs : List Byte) : List Byte := bs ++ wordBytes (crc16 bs)

/-- R176: a frame passes its check when it has at least 6 bytes and its last two are the CRC of the rest. -/
def checkGood (f : List Byte) : Bool :=
  decide (6 ≤ f.length) &&
    (f.drop (f.length - 2) == wordBytes (crc16 (f.take (f.length - 2))))

/-! ## Trunk request frame (section 11.2) -/

/-- The fields of a trunk frame that has passed its check: kind byte and the rest (R177). -/
def readTrunkFrame : List Byte → Option (Byte × Request)
  | b0 :: tag :: kind :: len :: rest =>
    some (kind, { originator := Fin.ofNat 4 (b0.toNat / 64)
                  destination := BitVec.ofNat 6 b0.toNat
                  tag := tag
                  length := len
                  body := rest.take (rest.length - 2) })
  | _ => none

/-- The bytes of a trunk request frame with its check (section 11.2). -/
def trunkFrameBytes (kind : Byte) (rq : Request) : List Byte :=
  withCheck (byteOf (rq.originator.val * 64 + rq.destination.toNat) :: rq.tag :: kind ::
    rq.length :: rq.body)

/-- The node a node address names, if it is one of 1..48 (R1). -/
def NodeIdx.ofAddr? (a : Nat) : Option NodeIdx :=
  if h : 1 ≤ a ∧ a ≤ 48 then some ⟨a - 1, by omega⟩ else none

/-- The address of a node, 1..48 (R1). -/
def NodeIdx.addr (n : NodeIdx) : Nat := n.val + 1

/-- R177: the body, when its length byte is the number of bytes received and at most 96. -/
def Request.sizedBody (rq : Request) : Option (List Byte) :=
  if rq.length.toNat = rq.body.length ∧ rq.body.length ≤ 96 then some rq.body else none

/-! ## Request bodies (Table 11-2)

Each reader answers none for a fault of structure (R68, R177). -/

/-- A point index byte, 0..15. -/
def readIdx (b : Byte) : Option (Fin 16) :=
  if h : b.toNat < 16 then some ⟨b.toNat, h⟩ else none

/-- `n` items of three bytes, and nothing after them. -/
def readItems : Nat → List Byte → Option (List Item)
  | 0, [] => some []
  | n + 1, p :: hi :: lo :: rest =>
    match readIdx p, readItems n rest with
    | some pt, some its => some ({ point := pt, value := wordOf hi lo } :: its)
    | _, _ => none
  | _, _ => none

/-- The bytes of some items. -/
def itemBytes (its : List Item) : List Byte :=
  its.flatMap fun it => byteOf it.point.val :: wordBytes it.value

/-- `n` point indices, and nothing after them. -/
def readPoints : Nat → List Byte → Option (List PointIdx)
  | 0, [] => some []
  | n + 1, p :: rest =>
    match readIdx p, readPoints n rest with
    | some pt, some pts => some (pt :: pts)
    | _, _ => none
  | _, _ => none

/-- The bytes of some point indices. -/
def pointBytes (pts : List PointIdx) : List Byte := pts.map fun p => byteOf p.val

/-- A list body: a count of 1..16 and what the count says, read by `rd`; no key named twice (R68). -/
def readCounted {α κ : Type} [DecidableEq κ] (rd : Nat → List Byte → Option (List α)) (key : α → κ) :
    List Byte → Option (List α)
  | n :: rest =>
    if 1 ≤ n.toNat ∧ n.toNat ≤ 16 then
      match rd n.toNat rest with
      | some xs => if (xs.map key).Nodup then some xs else none
      | none => none
    else none
  | [] => none

/-- WRITE, STAGE: 1..16 items, no point named twice. -/
def readItemsBody (b : List Byte) : Option (List Item) := readCounted readItems Item.point b

/-- The body of a WRITE or STAGE. -/
def itemsBody (its : List Item) : List Byte := byteOf its.length :: itemBytes its

/-- READ: 1..16 points, none named twice. -/
def readPointsBody (b : List Byte) : Option (List PointIdx) := readCounted readPoints id b

/-- The body of a READ. -/
def pointsBody (pts : List PointIdx) : List Byte := byteOf pts.length :: pointBytes pts

/-- MODIFY: point, operation, bit. -/
def readModifyBody : List Byte → Option (PointIdx × BitOp × Fin 16)
  | [p, o, b] =>
    match readIdx p, BitOp.ofCode? o, readIdx b with
    | some pt, some op, some bit => some (pt, op, bit)
    | _, _, _ => none
  | _ => none

/-- The body of a MODIFY. -/
def modifyBody (p : PointIdx) (o : BitOp) (b : Fin 16) : List Byte :=
  [byteOf p.val, o.code, byteOf b.val]

/-- RELEASE: one item, without a count. -/
def readItemBody : List Byte → Option Item
  | [p, hi, lo] =>
    match readIdx p with
    | some pt => some { point := pt, value := wordOf hi lo }
    | none => none
  | _ => none

/-- The body of a RELEASE. -/
def itemBody (it : Item) : List Byte := byteOf it.point.val :: wordBytes it.value

/-- TEST: point, bit. -/
def readTestBody : List Byte → Option (PointIdx × Fin 16)
  | [p, b] =>
    match readIdx p, readIdx b with
    | some pt, some bit => some (pt, bit)
    | _, _ => none
  | _ => none

/-- The body of a TEST. -/
def testBody (p : PointIdx) (b : Fin 16) : List Byte := [byteOf p.val, byteOf b.val]

/-- CLAIM, UNCLAIM: a point. -/
def readPointBody : List Byte → Option PointIdx
  | [p] => readIdx p
  | _ => none

/-- The body of a CLAIM or UNCLAIM. -/
def pointBody (p : PointIdx) : List Byte := [byteOf p.val]

/-- The kinds without a body. -/
def readEmptyBody : List Byte → Option Unit
  | [] => some ()
  | _ => none

/-- `n` declarations of CONFIGURE NODE, and nothing after them. -/
def readDecls : Nat → List Byte → Option (List Decl)
  | 0, [] => some []
  | n + 1, p :: w :: h :: rest =>
    match readIdx p, readDecls n rest with
    | some pt, some ds =>
      if 1 ≤ w.toNat ∧ w.toNat ≤ 16 ∧ h.toNat ≤ 1 then
        some ({ point := pt, width := w.toNat, held := h = 1#8 } :: ds)
      else none
    | _, _ => none
  | _, _ => none

/-- CONFIGURE NODE: a node, then 1..16 declarations, no point named twice (R10). -/
def readConfigureBody : List Byte → Option (NodeIdx × List Decl)
  | a :: rest =>
    match NodeIdx.ofAddr? a.toNat, readCounted readDecls Decl.point rest with
    | some n, some ds => some (n, ds)
    | _, _ => none
  | [] => none

/-- The body of a CONFIGURE NODE. -/
def configureBody (n : NodeIdx) (ds : List Decl) : List Byte :=
  byteOf n.addr :: byteOf ds.length ::
    ds.flatMap fun d => [byteOf d.point.val, byteOf d.width, if d.held then 0x01 else 0x00]

/-- REMOVE NODE, PARK NODE, UNPARK NODE, NODE STATUS: a node address 1..48. -/
def readNodeBody : List Byte → Option NodeIdx
  | [a] => NodeIdx.ofAddr? a.toNat
  | _ => none

/-- The body of the requests that name a node alone. -/
def nodeBody (n : NodeIdx) : List Byte := [byteOf n.addr]

/-- `n` pairs of identifier and value, and nothing after them. -/
def readParams : Nat → List Byte → Option (List (ParamId × Byte))
  | 0, [] => some []
  | n + 1, i :: v :: rest =>
    match ParamId.ofCode? i, readParams n rest with
    | some p, some ps => some ((p, v) :: ps)
    | _, _ => none
  | _, _ => none

/-- SET PARAMETERS: 1..16 items, no identifier named twice (R169). -/
def readParamsBody (b : List Byte) : Option (List (ParamId × Byte)) :=
  readCounted readParams Prod.fst b

/-- The body of a SET PARAMETERS. -/
def paramsBody (ps : List (ParamId × Byte)) : List Byte :=
  byteOf ps.length :: ps.flatMap fun p => [p.1.code, p.2]

/-- SET MODE: 0x01 RUN, 0x02 DRAIN (R154). -/
def readModeBody : List Byte → Option ModeRequest
  | [b] => if b = 0x01 then some .run else if b = 0x02 then some .drain else none
  | _ => none

/-- The body of a SET MODE. -/
def modeBody : ModeRequest → List Byte
  | .run => [0x01]
  | .drain => [0x02]

/-- READ STATUS, READ COUNTERS: 0x00 read, 0x01 read and clear. -/
def readOptionBody : List Byte → Option Bool
  | [b] => if b = 0x00 then some false else if b = 0x01 then some true else none
  | _ => none

/-- The body of a READ STATUS or READ COUNTERS. -/
def optionBody (clear : Bool) : List Byte := [if clear then 0x01 else 0x00]

/-- READ EXCEPTIONS: a number of records 1..8 (R145). -/
def readNumberBody : List Byte → Option Nat
  | [b] => if 1 ≤ b.toNat ∧ b.toNat ≤ 8 then some b.toNat else none
  | _ => none

/-- The body of a READ EXCEPTIONS. -/
def numberBody (n : Nat) : List Byte := [byteOf n]

/-- SET NOTICE MASK: bits 4..0 the marks, bits 7..5 zero. -/
def readMaskBody : List Byte → Option (BitVec 5)
  | [b] => if b.toNat < 32 then some (BitVec.ofNat 5 b.toNat) else none
  | _ => none

/-- The body of a SET NOTICE MASK. -/
def maskBody (m : BitVec 5) : List Byte := [m.setWidth 8]

/-! ## Drop reply (section 11.5, R178) -/

/-- How a unicast drop transaction ended (R28, R30). -/
inductive DropOutcome
  /-- Valid reply ACCEPTED, with its class and, for a READ, its values. -/
  | accepted (cls : HoldClass) (values : List Word)
  /-- Valid reply REFUSED, with its class. -/
  | refused (cls : HoldClass)
  /-- The reply window expired. -/
  | noReply
  deriving DecidableEq, Repr

/-- `n` values of two bytes, then two bytes of frame check. -/
def readValues : Nat → List Byte → Option (List Word)
  | 0, [_, _] => some []
  | n + 1, hi :: lo :: rest =>
    match readValues n rest with
    | some vs => some (wordOf hi lo :: vs)
    | none => none
  | _, _ => none

/-- R28, R178: the outcome a frame received while AWAITING gives, or none when a check fails.
`addr` is the address of the transaction in flight; `reads` is the READ's point count, if it is a READ. -/
def readReply (addr : Nat) (reads : Option Nat) (f : List Byte) : Option DropOutcome :=
  if checkGood f then
    match f with
    | a :: st :: c :: n :: rest =>
      if a.toNat = addr then
        match HoldClass.ofCode? c, readValues n.toNat rest with
        | some cls, some vs =>
          if st = 0x01 then
            if n.toNat = reads.getD 0 then some (.accepted cls vs) else none
          else if st = 0x02 then
            if n.toNat = 0 then some (.refused cls) else none
          else none
        | _, _ => none
      else none
    | _ => none
  else none

/-- The bytes of a reply (section 11.5). -/
def replyBytes (n : NodeIdx) (accepted : Bool) (c : HoldClass) (vs : List Word) : List Byte :=
  withCheck (byteOf n.addr :: (if accepted then 0x01 else 0x02) :: c.code ::
    byteOf vs.length :: vs.flatMap wordBytes)

/-! ## The table's words -/

/-- The command that a word spells by the bits of spec/opcode_table.json. The table gives no row any bits
("fields" is empty in every row), so no word spells a command. -/
def decodeTableWord (nbits w : Nat) : Option Instr :=
  match nbits, w with
  | _, _ => none

end Sys2Proof
end

