-- ==== Sys2Proof/Machine/State.lean ====
section
/-! DEFINITION. The state of the PH48, block by block as section 0.3 lists the blocks, and its value after a full
reset. Plain data throughout. -/

namespace Sys2Proof.Machine

/-! ## Node Table -/

/-- A point record (R3). -/
structure PointRec where
  /-- Declared width 1..16, or none while undeclared. -/
  width : Option Nat := none
  held : Bool := false
  /-- The active value; none is UNSET. -/
  active : Option Word := none
  /-- The pending value, when present. -/
  pending : Option Word := none
  deriving DecidableEq, Repr

/-- A node entry (R1). -/
structure NodeEntry where
  state : NodeState := .absent
  points : Vector PointRec 16 := Vector.replicate 16 {}
  cls : HoldClass := .tight
  debt : Nat := 0
  alternation : Bool := false
  silence : Nat := 0
  probe : Nat := 0
  deriving DecidableEq, Repr

/-! ## Trunk frames the part sends -/

/-- A set of write conditions: an IMPOTENT set (R93), an entry's conditions let through (R76), or the
impotent summary (R101). -/
structure CondSet where
  overrange : Bool := false
  conflict : Bool := false
  broken : Bool := false
  deriving DecidableEq, Repr

/-- The flags of a response (section 11.3, byte 4). -/
structure RespFlags where
  passed : CondSet := {}
  zero : Bool := false
  changed : Bool := false
  unset : Bool := false
  pending : Bool := false
  deriving DecidableEq, Repr

/-- A response frame (section 11.3); `kind` is the kind byte as it is sent (R177). -/
structure Response where
  originator : Originator
  tag : Byte
  kind : Byte
  status : Status
  flags : RespFlags := {}
  body : List Byte := []
  deriving DecidableEq, Repr

/-- A frame of the transmit queue (R82). -/
inductive TrunkFrame
  | response (r : Response)
  /-- R149: the notice originator, the five flags, the number of exception records. -/
  | notice (originator : Originator) (flags : BitVec 5) (records : Nat)
  deriving DecidableEq, Repr

/-- Trunk Port (R85). -/
structure TrunkPort where
  queue : List TrunkFrame := []
  /-- PAUSE asserted (R83). -/
  pause : Bool := false
  closing : Bool := false
  deriving DecidableEq, Repr

/-! ## Point Operation Unit -/

/-- What a forwarded request asks (R76). -/
inductive NodeOp
  | write (items : List Item)
  | modify (point : PointIdx) (op : BitOp) (bit : Fin 16)
  | read (points : List PointIdx)
  | release (item : Item)
  deriving DecidableEq, Repr

/-- A forward-queue entry (R76). -/
structure FwdEntry where
  originator : Originator
  tag : Byte
  node : NodeIdx
  op : NodeOp
  /-- The conditions let through so far. -/
  passed : CondSet := {}
  deriving DecidableEq, Repr

/-- The request in hand (R78). -/
structure InHand where
  entry : FwdEntry
  /-- A MODIFY's new value and whether it differs from the active value at the grant (R90). -/
  modified : Option (Word × Bool) := none
  deriving DecidableEq, Repr

/-- The Last Refusal record (R99). -/
structure LastRefusal where
  originator : Originator
  tag : Byte
  kind : ReqKind
  node : NodeIdx
  point : PointIdx
  condition : Condition
  deriving DecidableEq, Repr

/-- Point Operation Unit (R85, R102). -/
structure PointUnit where
  forward : List FwdEntry := []
  inHand : Option InHand := none
  summary : CondSet := {}
  lastRefusal : Option LastRefusal := none
  deriving DecidableEq, Repr

/-! ## Renewal Scheduler -/

/-- Renewal Scheduler (R65); the health fields are in the node entries. -/
structure Renewal where
  /-- Time left in the quarter in progress, in units of 10 µs (R42). -/
  quarterLeft : Nat := 500
  phase : Fin 4 := 0
  intervalCount : Word := 0
  /-- The last-renewed address; index 47 is address 48 (R50). -/
  lastRenewed : NodeIdx := 47
  deriving DecidableEq, Repr

/-! ## Claim Table -/

/-- A claim record (R103). -/
structure Claim where
  originator : Originator
  node : NodeIdx
  point : PointIdx
  /-- The claimed value; none is UNSET. -/
  value : Option Word
  state : ClaimState
  releasing : Bool
  life : Nat
  deriving DecidableEq, Repr

/-! ## Stage Store and Commit Engine -/

/-- A stage entry (R119). -/
structure StageEntry where
  node : NodeIdx
  point : PointIdx
  value : Word
  deriving DecidableEq, Repr

/-- A stage (R119); the default is a CLOSED stage. -/
structure Stage where
  state : StageState := .closed
  entries : List StageEntry := []
  life : Option Nat := none
  /-- The tag of the COMMIT that awaits its response. -/
  request : Option Byte := none
  /-- The commit tag. -/
  tag : Option Byte := none
  deriving DecidableEq, Repr

/-- Why a commit failed (R132). -/
inductive FailCause | noReply | nodeRefused | nodeState
  deriving DecidableEq, Repr

/-- The phases of a commit (R127). The failure of R127, a node and a cause, is present exactly while the
phase is ABANDONING (R132), so it stands with that phase. -/
inductive CommitPhase
  | loading
  | taking
  | abandoning (node : NodeIdx) (cause : FailCause)
  deriving DecidableEq, Repr

/-- The commit in flight (R127). -/
structure Commit where
  /-- The originator of the COMMITTING stage. -/
  originator : Originator
  phase : CommitPhase
  order : List NodeIdx
  /-- Index into the node order of the next node to load. -/
  position : Nat
  loaded : List NodeIdx
  deriving DecidableEq, Repr

/-- Commit Engine (R127). -/
structure CommitEngine where
  queue : List Originator := []
  commit : Option Commit := none
  nextTag : Byte := 1
  clearOwed : Bool := false
  deriving DecidableEq, Repr

/-! ## Drop Bus Controller -/

/-- The unicast drop frames (R20). -/
inductive UniFrame
  | write (items : List Item)
  | read (points : List PointIdx)
  | renew (items : List Item)
  | load (tag : Byte) (items : List Item)
  deriving DecidableEq, Repr

/-- The broadcast drop frames (R20); ABANDON with tag 0 is the CLEAR. -/
inductive BroadFrame
  | take (tag : Byte)
  | abandon (tag : Byte)
  deriving DecidableEq, Repr

/-- The conditions of a transaction (R25). -/
inductive TxnCond | transmitting | awaiting
  deriving DecidableEq, Repr

/-- A unicast transaction in flight (R25). -/
structure UniTxn where
  node : NodeIdx
  frame : UniFrame
  /-- The window code taken at the grant (R26). -/
  window : Nat
  cond : TxnCond
  /-- Time left of the reply window, in units of 10 µs; it runs while AWAITING (R27). -/
  windowLeft : Nat
  deriving DecidableEq, Repr

/-- The transaction in flight (R25). A broadcast is TRANSMITTING for as long as it is held (R31). -/
inductive Txn
  | uni (t : UniTxn)
  | broad (f : BroadFrame)
  deriving DecidableEq, Repr

/-- Drop Bus Controller and its arbiter (R41). -/
structure DropBus where
  /-- None while the bus is FREE. -/
  txn : Option Txn := none
  /-- Time since the bus became FREE, in units of 10 µs, held at 255 (R33). -/
  idleTimer : Nat := 0
  rotation : List Requester := [.fwd, .cmt, .rnw]
  lead : List Requester := [.fwd, .rnw]
  yieldMarker : Bool := false
  deriving DecidableEq, Repr

/-! ## Exception Queue and Notice Unit -/

/-- The detail of a LAPSE record (R143). -/
inductive LapseCause | overdue | dropped
  deriving DecidableEq, Repr

/-- The detail of a CLAIM_BROKEN record (R107). -/
inductive BreakCause | write | take
  deriving DecidableEq, Repr

/-- What an exception record reports; each kind fills the fields of the second table of R143. -/
inductive ExcBody
  | lapse (node : NodeIdx) (cause : LapseCause)
  | silent (node : NodeIdx)
  | restored (node : NodeIdx)
  | renewRefused (node : NodeIdx)
  | claimBroken (node : NodeIdx) (point : PointIdx) (originator : Originator) (cause : BreakCause)
  | claimExpired (node : NodeIdx) (point : PointIdx) (originator : Originator)
  | stageExpired (originator : Originator) (freed : Nat)
  deriving DecidableEq, Repr

/-- An exception record (R143). -/
structure ExcRecord where
  body : ExcBody
  stamp : Word
  deriving DecidableEq, Repr

/-- Exception Queue and Notice Unit (R152). Bit i of the flags and the mask is the flag of bit i of
Table 11-10; a mask bit of 1 is UNMASKED. -/
structure ExcUnit where
  queue : List ExcRecord := []
  flags : BitVec 5 := 0
  mask : BitVec 5 := 0
  deriving DecidableEq, Repr

/-! ## Counters and parameters -/

/-- The eleven counters (R150). -/
structure Counters where
  trunkCrcErrors : Word := 0
  trunkMalformed : Word := 0
  responsesLost : Word := 0
  requestsBusy : Word := 0
  potentRefusals : Word := 0
  impotentWrites : Word := 0
  dropNoReply : Word := 0
  dropReplyFaults : Word := 0
  renewalsAccepted : Word := 0
  exceptionsLost : Word := 0
  stageExhausted : Word := 0
  deriving DecidableEq, Repr

/-- The sixteen parameters with their defaults (R168). -/
structure Params where
  renewalInterval : Nat := 20
  stagger : Bool := true
  highWatermark : Nat := 4
  panicWatermark : Nat := 6
  wakeDebits : Nat := 2
  replyWindowCode : Nat := 3
  /-- In units of 10 µs. -/
  idleWindow : Nat := 20
  arbMode : ArbMode := .rotate
  commitPace : CommitPace := .yield
  claimTimeout : Nat := 25
  stageTimeout : Nat := 100
  overrangePotency : Potency := .potent
  conflictPotency : Potency := .potent
  brokenPotency : Potency := .potent
  noticeOriginator : Originator := 0
  /-- Bit i is the mark of originator i (R71). -/
  managerSet : BitVec 4 := 15
  deriving DecidableEq, Repr

/-! ## The whole part -/

/-- The state of the part, with the queue of commands that wait for it. -/
structure State where
  nodes : Vector NodeEntry 48 := Vector.replicate 48 {}
  tp : TrunkPort := {}
  pou : PointUnit := {}
  rs : Renewal := {}
  claims : List Claim := []
  stages : Vector Stage 4 := Vector.replicate 4 {}
  ce : CommitEngine := {}
  dbc : DropBus := {}
  exq : ExcUnit := {}
  counters : Counters := {}
  mode : Mode := .halted
  params : Params := {}
  /-- RESET is held low (R164). -/
  resetLow : Bool := false
  /-- The model's own: the argument of the next free value. Assumption log 3. -/
  freeIndex : Nat := 0
  /-- The commands waiting, oldest first. -/
  pending : List Instr := []
  deriving DecidableEq, Repr

/-- The part right after a full reset: every field at the reset value its own rule gives (R9, R41, R65, R85,
R102, R117, R141, R152, R153, R168), RESET not held low, and no command waiting. -/
def State.reset : State := {}

/-- Why a step can stop. The manual describes no state in which the part stops, so no step faults and
there is no reason to name. -/
inductive Fault
  deriving DecidableEq, Repr

/-- Why a command can be refused. -/
inductive Refusal
  /-- Raised by `exec` for a command that has no meaning yet; no arm of `exec` raises it. Safe. -/
  | notModelled (mnemonic : String)
  deriving DecidableEq, Repr

end Sys2Proof.Machine
end

