-- ==== Sys2Proof/Machine/Ops.lean ====
section
/-! DEFINITION. The shared operations on the part's state: the shadow, counters and flags, the transmit queue,
exception records, notices, claims, stages, value-setting events, and the full reset. Every write to the state
goes through one of these or through a block's own file. -/

namespace Sys2Proof

/-- The states in which a node is in service (R8). -/
def NodeState.inService : NodeState → Bool
  | .live | .lapsed | .silent => true
  | .absent | .parked => false

/-- The bit of a notice flag in the flags and mask bytes (Table 11-10). -/
def NoticeFlag.bit : NoticeFlag → BitVec 5
  | .excPending => 1
  | .excLost => 2
  | .counterWrap => 4
  | .poolShort => 8
  | .halted => 16

end Sys2Proof

namespace Sys2Proof.Machine

/-! ## Node Table access -/

/-- The entry of a node (R1). -/
def State.node (s : State) (n : NodeIdx) : NodeEntry := s.nodes[n]

/-- Replace a node's entry. -/
def State.setNode (s : State) (n : NodeIdx) (e : NodeEntry) : State :=
  { s with nodes := s.nodes.set n e }

/-- A point record of an entry (R3). -/
def NodeEntry.point (e : NodeEntry) (p : PointIdx) : PointRec := e.points[p]

/-- Replace a point record of an entry. -/
def NodeEntry.setPoint (e : NodeEntry) (p : PointIdx) (r : PointRec) : NodeEntry :=
  { e with points := e.points.set p r }

/-- A point record of the shadow. -/
def State.point (s : State) (n : NodeIdx) (p : PointIdx) : PointRec := (s.node n).point p

/-- Replace a point record of the shadow. -/
def State.setPoint (s : State) (n : NodeIdx) (p : PointIdx) (r : PointRec) : State :=
  s.setNode n ((s.node n).setPoint p r)

/-- Set or remove a point's pending value (R7). -/
def State.setPending (s : State) (n : NodeIdx) (p : PointIdx) (v : Option Word) : State :=
  s.setPoint n p { s.point n p with pending := v }

/-! ## Counters and notice flags -/

/-- A counter's value. -/
def Counters.get (c : Counters) : Counter → Word
  | .trunkCrcErrors => c.trunkCrcErrors
  | .trunkMalformed => c.trunkMalformed
  | .responsesLost => c.responsesLost
  | .requestsBusy => c.requestsBusy
  | .potentRefusals => c.potentRefusals
  | .impotentWrites => c.impotentWrites
  | .dropNoReply => c.dropNoReply
  | .dropReplyFaults => c.dropReplyFaults
  | .renewalsAccepted => c.renewalsAccepted
  | .exceptionsLost => c.exceptionsLost
  | .stageExhausted => c.stageExhausted

/-- A counter incremented by 1, wrapping from 65535 to 0 (R150). -/
def Counters.incr (c : Counters) : Counter → Counters
  | .trunkCrcErrors => { c with trunkCrcErrors := c.trunkCrcErrors + 1 }
  | .trunkMalformed => { c with trunkMalformed := c.trunkMalformed + 1 }
  | .responsesLost => { c with responsesLost := c.responsesLost + 1 }
  | .requestsBusy => { c with requestsBusy := c.requestsBusy + 1 }
  | .potentRefusals => { c with potentRefusals := c.potentRefusals + 1 }
  | .impotentWrites => { c with impotentWrites := c.impotentWrites + 1 }
  | .dropNoReply => { c with dropNoReply := c.dropNoReply + 1 }
  | .dropReplyFaults => { c with dropReplyFaults := c.dropReplyFaults + 1 }
  | .renewalsAccepted => { c with renewalsAccepted := c.renewalsAccepted + 1 }
  | .exceptionsLost => { c with exceptionsLost := c.exceptionsLost + 1 }
  | .stageExhausted => { c with stageExhausted := c.stageExhausted + 1 }

/-- Set a notice flag; a flag that is set is left set (R146). -/
def State.raise (f : NoticeFlag) (s : State) : State :=
  { s with exq := { s.exq with flags := s.exq.flags ||| f.bit } }

/-- Increment a counter; its wrap sets COUNTER_WRAP (R150). -/
def State.count (c : Counter) (s : State) : State :=
  let s' := { s with counters := s.counters.incr c }
  if s.counters.get c = 0xFFFF#16 then s'.raise .counterWrap else s'

/-! ## The transmit queue -/

/-- A frame joins the transmit queue; PAUSE is asserted when it makes the occupancy 24 (R82, R83). -/
def State.enqueue (f : TrunkFrame) (s : State) : State :=
  { s with tp := { s.tp with
      queue := s.tp.queue ++ [f]
      pause := s.tp.pause || s.tp.queue.length + 1 == 24 } }

/-- A response is generated. It joins the transmit queue, or is lost and counted when the queue holds 32
frames (R82), or is discarded uncounted while the TP is CLOSING (R84). -/
def State.respond (r : Response) (s : State) : State :=
  if s.tp.closing then s
  else if s.tp.queue.length < 32 then s.enqueue (.response r)
  else s.count .responsesLost

/-- The flags that are set and unmasked. -/
def State.audible (s : State) : BitVec 5 := s.exq.flags &&& s.exq.mask

/-- R149: between the two states a flag went from clear to set while UNMASKED, or a mark from MASKED to
UNMASKED while its flag is set: some flag is set and unmasked after and was not both before. -/
def rings (before after : State) : Bool := after.audible &&& ~~~before.audible != 0#5

/-- The end of an event that began in `before`: the one NOTICE it generates, if any, joins the transmit
queue after every response of the event, unless the queue is full or the TP is CLOSING (R149, R82, R84). -/
def closeEvent (before after : State) : State :=
  if rings before after && !after.tp.closing && decide (after.tp.queue.length < 32) then
    after.enqueue (.notice after.params.noticeOriginator after.exq.flags after.exq.queue.length)
  else after

/-! ## Exception records -/

/-- A record is offered to the EXQ with the interval count as its stamp: appended, setting EXC_PENDING if the
queue was empty; or lost, with EXCEPTIONS_LOST and EXC_LOST, when the queue holds 32 (R43, R144). -/
def State.offer (b : ExcBody) (s : State) : State :=
  if s.exq.queue.length < 32 then
    let s' := { s with exq := { s.exq with
      queue := s.exq.queue ++ [{ body := b, stamp := s.rs.intervalCount }] } }
    if s.exq.queue.isEmpty then s'.raise .excPending else s'
  else (s.count .exceptionsLost).raise .excLost

/-! ## Claims -/

/-- A claim record is for this point. -/
def Claim.on (c : Claim) (n : NodeIdx) (p : PointIdx) : Bool := c.node == n && c.point == p

/-- The record for a node and point, if the table holds one (R103: at most one). -/
def State.claimOn (s : State) (n : NodeIdx) (p : PointIdx) : Option Claim :=
  s.claims.find? fun c => c.on n p

/-- The record for a node and point that this originator holds. -/
def State.claimOf (s : State) (o : Originator) (n : NodeIdx) (p : PointIdx) : Option Claim :=
  s.claims.find? fun c => c.on n p && c.originator == o

/-- Change the record for a node and point. -/
def State.mapClaim (n : NodeIdx) (p : PointIdx) (f : Claim → Claim) (s : State) : State :=
  { s with claims := s.claims.map fun c => if c.on n p then f c else c }

/-- Remove the record for a node and point. -/
def State.dropClaim (n : NodeIdx) (p : PointIdx) (s : State) : State :=
  { s with claims := s.claims.filter fun c => !c.on n p }

/-- R107: a value-setting event breaks the claim on its point. An INTACT claim becomes BROKEN and a
CLAIM_BROKEN record is queued; a BROKEN one stays as it is. -/
def State.breakClaim (n : NodeIdx) (p : PointIdx) (cause : BreakCause) (s : State) : State :=
  match s.claimOn n p with
  | some c =>
    if c.state = .intact then
      (s.mapClaim n p fun c => { c with state := .broken }).offer
        (.claimBroken n p c.originator cause)
    else s
  | none => s

/-- A value-setting event (R6): the active value is written and the event is presented to the CT. -/
def State.setActive (n : NodeIdx) (p : PointIdx) (v : Word) (cause : BreakCause) (s : State) : State :=
  (s.setPoint n p { s.point n p with active := some v }).breakClaim n p cause

/-! ## Stages -/

/-- An originator's stage (R119). -/
def State.stage (s : State) (o : Originator) : Stage := s.stages[o]

/-- Replace an originator's stage. -/
def State.setStage (s : State) (o : Originator) (g : Stage) : State :=
  { s with stages := s.stages.set o g }

/-- Entries held by the four stages. -/
def State.staged (s : State) : Nat :=
  (s.stage 0).entries.length + (s.stage 1).entries.length + (s.stage 2).entries.length +
    (s.stage 3).entries.length

/-- The pool's free count (R119: with the entries held it is always 192). -/
def State.poolFree (s : State) : Nat := 192 - s.staged

/-- The stage becomes CLOSED and its entries return to the pool (R119). -/
def State.closeStage (o : Originator) (s : State) : State := s.setStage o {}

/-- The deferred response of the COMMIT that the stage records is generated (R135). -/
def State.answerCommit (o : Originator) (st : Status) (body : List Byte) (s : State) : State :=
  match (s.stage o).request with
  | some tag =>
    s.respond { originator := o, tag := tag, kind := ReqKind.commit.code, status := st, body := body }
  | none => s

/-! ## The drop bus and the segment -/

/-- The bus is FREE (R25). -/
def State.busFree (s : State) : Bool := s.dbc.txn.isNone

/-- The DBC becomes FREE and the idle timer starts (R33). -/
def State.freeBus (s : State) : State := { s with dbc := { s.dbc with txn := none, idleTimer := 0 } }

/-- R33: the bus has been idle for the idle window. -/
def State.idleElapsed (s : State) : Bool :=
  s.busFree && decide (s.params.idleWindow ≤ s.dbc.idleTimer)

/-- R158: in DRAINING, no commit in flight, no CLEAR owed and no transaction in flight. -/
def State.drained (s : State) : Bool :=
  s.mode == .draining && s.ce.commit.isNone && !s.ce.clearOwed && s.busFree

/-- R158: the drain ends when it can: the mode becomes HALTED and the HALTED flag is set. -/
def State.endDrain (s : State) : State :=
  if s.drained then { s with mode := .halted }.raise .halted else s

/-- R165: every block at its reset values. What is not the part's keeps its value: the level of the RESET
pin, the commands waiting, and the free values' counter. -/
def State.fullReset (s : State) : State :=
  { State.reset with resetLow := s.resetLow, freeIndex := s.freeIndex, pending := s.pending }

end Sys2Proof.Machine
end

