-- ==== Sys2Proof/Machine/CommitEngine.lean ====
section
/-! DEFINITION. The Commit Engine: taking a stage (R129), the outcome of a LOAD (R131, R132), the end of a commit
(R133, R134), and what it presents to the arbiter (R127). -/

namespace Sys2Proof.Machine

/-- R129: the nodes of a stage's entries, each once, in the order of its first entry. -/
def nodeOrder (es : List StageEntry) : List NodeIdx :=
  es.foldl (fun acc e => if e.node ∈ acc then acc else acc ++ [e.node]) []

/-- R129: the next tag advances by 1, from 255 to 1. -/
def tagAfter (t : Byte) : Byte := if t = 0xFF then 0x01 else t + 1

/-- R129: with no commit in flight, no CLEAR owed and a stage queued, the CE takes the head of its queue. -/
def State.takeCommit (s : State) : State :=
  if s.ce.commit.isNone && !s.ce.clearOwed then
    match s.ce.queue with
    | o :: rest =>
      let c : Commit :=
        { originator := o, phase := .loading, order := nodeOrder (s.stage o).entries,
          position := 0, loaded := [] }
      { s.setStage o { s.stage o with state := .committing, tag := some s.ce.nextTag } with
        ce := { s.ce with queue := rest, commit := some c, nextTag := tagAfter s.ce.nextTag } }
    | [] => s
  else s

/-- The end of a commit: its COMMIT is answered, its stage is CLOSED, the CE's commit state becomes absent, and
the CE takes the next commit if R129 allows (R133, R134). -/
def State.endCommit (o : Originator) (st : Status) (body : List Byte) (s : State) : State :=
  let s' := (s.answerCommit o st body).closeStage o
  State.takeCommit { s' with ce := { s'.ce with commit := none } }

/-- The pending values of these stage entries are removed (R7). -/
def State.dropPending (es : List StageEntry) (s : State) : State :=
  es.foldl (fun s e => s.setPending e.node e.point none) s

/-- R133 step 1, for one entry: the point's pending value becomes its active value. -/
def State.takePoint (s : State) (e : StageEntry) : State :=
  match (s.point e.node e.point).pending with
  | some v => s.setActive e.node e.point v .take
  | none => s

/-- The entries of a commit in the order of R133: the node order, and within a node the order of the stage. -/
def takeOrder (order : List NodeIdx) (es : List StageEntry) : List StageEntry :=
  order.flatMap fun n => es.filter fun e => e.node == n

/-- R133: the end of a commit by its TAKE. -/
def State.endTake (c : Commit) (tag : Byte) (s : State) : State :=
  let es := (s.stage c.originator).entries
  let s' := (takeOrder c.order es).foldl State.takePoint s
  (s'.dropPending es).endCommit c.originator .committed
    [tag, byteOf c.order.length, byteOf es.length]

/-- The cause of a failure as a status (Table 11-4, COMMIT_FAILED). -/
def FailCause.status : FailCause → Status
  | .noReply => .noReply
  | .nodeRefused => .nodeRefused
  | .nodeState => .nodeState

/-- R134: the end of a commit by its failure. -/
def State.endFailed (c : Commit) (n : NodeIdx) (cause : FailCause) (s : State) : State :=
  (s.dropPending (s.stage c.originator).entries).endCommit c.originator .commitFailed
    [byteOf n.addr, cause.status.code]

/-- R132: a commit fails at a node: ABANDONING when a node is loaded, else the commit ends at once. -/
def State.failCommit (c : Commit) (n : NodeIdx) (cause : FailCause) (s : State) : State :=
  if c.loaded.isEmpty then s.endFailed c n cause
  else { s with ce := { s.ce with commit := some { c with phase := .abandoning n cause } } }

/-- R131: after an ACCEPTED LOAD the node is loaded and the position advances; after the last node the phase
is TAKING. -/
def Commit.advance (c : Commit) (n : NodeIdx) : Commit :=
  { c with
    loaded := c.loaded ++ [n]
    position := c.position + 1
    phase := if c.position + 1 < c.order.length then .loading else .taking }

/-- R131: an ACCEPTED LOAD sets the pending values it carried and advances the commit. -/
def State.loadAccepted (c : Commit) (n : NodeIdx) (items : List Item) (s : State) : State :=
  let s' := items.foldl (fun s it => s.setPending n it.point (some it.value)) s
  { s' with ce := { s'.ce with commit := some (c.advance n) } }

/-- The tag of the commit in flight: its stage's commit tag (R119). -/
def State.commitTag (s : State) (c : Commit) : Option Byte := (s.stage c.originator).tag

/-- R131, R132, R140: the CE's part in a LOAD's outcome. A LOAD whose commit is gone finds nothing to apply
to. -/
def State.loadOutcome (n : NodeIdx) (tag : Byte) (items : List Item) (o : DropOutcome) (s : State) :
    State :=
  match s.ce.commit with
  | some c =>
    if c.phase = .loading ∧ s.commitTag c = some tag then
      match o with
      | .accepted _ _ => s.loadAccepted c n items
      | .refused _ => s.failCommit c n .nodeRefused
      | .noReply => s.failCommit c n .noReply
    else s
  | none => s

/-- R133, R140: the CE's part in the end of a TAKE's transmission. -/
def State.takeEnded (tag : Byte) (s : State) : State :=
  match s.ce.commit with
  | some c =>
    if c.phase = .taking ∧ s.commitTag c = some tag then s.endTake c tag else s
  | none => s

/-- R134, R140: the CE's part in the end of an ABANDON's transmission. -/
def State.abandonEnded (tag : Byte) (s : State) : State :=
  match s.ce.commit with
  | some c =>
    match c.phase with
    | .abandoning n cause => if s.commitTag c = some tag then s.endFailed c n cause else s
    | .loading | .taking => s
  | none => s

/-- R128: the end of the CLEAR's transmission; the first queued commit is then taken (R129). -/
def State.clearEnded (s : State) : State :=
  State.takeCommit { s with ce := { s.ce with clearOwed := false } }

/-! ## What CMT presents (R127) -/

/-- A next transaction of the CE. -/
inductive CmtWork
  | clear
  | load (c : Commit) (node : NodeIdx) (tag : Byte)
  | take (tag : Byte)
  | abandon (tag : Byte)
  deriving DecidableEq, Repr

/-- A transaction of the CE's own is in flight (R20: the CE builds LOAD, TAKE and ABANDON). -/
def State.ceBusy (s : State) : Bool :=
  match s.dbc.txn with
  | some (.uni t) =>
    match t.frame with
    | .load _ _ => true
    | .write _ | .read _ | .renew _ => false
  | some (.broad _) => true
  | none => false

/-- The second table of R127: what the CE presents as CMT. -/
def State.cmtWork (s : State) : Option CmtWork :=
  if s.ceBusy then none
  else if s.ce.clearOwed then some .clear
  else
    match s.ce.commit with
    | none => none
    | some c =>
      match s.commitTag c with
      | none => none
      | some tag =>
        match c.phase with
        | .loading => (c.order[c.position]?).map fun n => .load c n tag
        | .taking => some (.take tag)
        | .abandoning _ _ => some (.abandon tag)

/-- R130: the items of a LOAD: one for each entry of the stage that names the node, in the stage's order. -/
def loadItems (es : List StageEntry) (n : NodeIdx) : List Item :=
  (es.filter fun e => e.node == n).map fun e => { point := e.point, value := e.value }

end Sys2Proof.Machine
end

