-- ==== Sys2Proof/Machine/Flags.lean ====
section
/-! DEFINITION. What is computed bit by bit: the operations of MODIFY (R89) with the flags of its response
(R90), the READ's MISMATCH mask (R92), truncation (R95), the sets of conditions, and the flags byte of a
response (section 11.3). -/

namespace Sys2Proof

/-- R89, REVERSE: bits 0..b reversed in order, bits above b unchanged. -/
def reverseLow (b : Nat) (v : Word) : Word :=
  (List.range 16).foldl
    (fun acc i => if v.getLsbD (if i ≤ b then b - i else i) then acc ||| (1#16 <<< i) else acc) 0#16

/-- R89: the new value of a MODIFY. -/
def BitOp.apply (o : BitOp) (b : Fin 16) (v : Word) : Word :=
  match o with
  | .set => v ||| (1#16 <<< b.val)
  | .clear => v &&& ~~~(1#16 <<< b.val)
  | .toggle => v ^^^ (1#16 <<< b.val)
  | .reverse => reverseLow b.val v

end Sys2Proof

namespace Sys2Proof.Machine

/-- R73: a value exceeds 2^w − 1. -/
def exceeds (w : Nat) (v : Word) : Bool := decide (2 ^ w ≤ v.toNat)

/-- R95: the low `w` bits of a value. -/
def truncate (w : Nat) (v : Word) : Word := BitVec.ofNat 16 (v.toNat % 2 ^ w)

/-- R92: the MISMATCH flag of one point: the active value is UNSET or the node's value differs from it. -/
def mismatch (active : Option Word) (v : Word) : Bool :=
  match active with
  | none => true
  | some a => a != v

/-- Table 11-4, READ: the mask whose bit i is the flag of the i-th point. -/
def maskOf (flags : List Bool) : Word :=
  BitVec.ofNat 16 (flags.foldr (fun b acc => b.toNat + 2 * acc) 0)

/-- A condition joins a set (R100, R101). -/
def CondSet.add (c : CondSet) : Condition → CondSet
  | .overrange => { c with overrange := true }
  | .conflict => { c with conflict := true }
  | .broken => { c with broken := true }

/-- The bits of a set of conditions: bit 0 OVERRANGE, bit 1 CONFLICT, bit 2 BROKEN (section 11.3). -/
def CondSet.bits (c : CondSet) : Nat :=
  c.overrange.toNat + 2 * c.conflict.toNat + 4 * c.broken.toNat

/-- The flags byte of a response (section 11.3, byte 4). -/
def RespFlags.byte (f : RespFlags) : Byte :=
  byteOf (f.passed.bits + 8 * f.zero.toNat + 16 * f.changed.toNat + 32 * f.unset.toNat +
    64 * f.pending.toNat)

/-- R90: the flags of a MODIFY response. -/
def modifyFlags (passed : CondSet) (m : Option (Word × Bool)) : RespFlags :=
  match m with
  | some (v, changed) => { passed := passed, zero := v == 0#16, changed := changed }
  | none => { passed := passed }

/-- R90, Table 11-4: the body of a MODIFY response. -/
def modifyRespBody (m : Option (Word × Bool)) : List Byte :=
  match m with
  | some (v, _) => wordBytes v
  | none => []

end Sys2Proof.Machine
end

