-- ==== Sys2Proof/Machine/Params.lean ====
section
/-! DEFINITION. The parameters as SET PARAMETERS and READ PARAMETERS see them: value codes and ranges (R168,
Table 11-11). -/

namespace Sys2Proof

/-- R168: the value code lies in the parameter's own range; for the panic watermark that is 2..8 alone
(R169 step 1). -/
def ParamId.inRange (i : ParamId) (v : Byte) : Bool :=
  match i with
  | .renewalInterval | .claimTimeout | .stageTimeout => decide (1 ≤ v.toNat)
  | .stagger | .commitPace | .overrangePotency | .conflictPotency | .brokenPotency =>
    decide (v.toNat ≤ 1)
  | .highWatermark => decide (1 ≤ v.toNat ∧ v.toNat ≤ 7)
  | .panicWatermark => decide (2 ≤ v.toNat ∧ v.toNat ≤ 8)
  | .wakeDebits => decide (1 ≤ v.toNat ∧ v.toNat ≤ 3)
  | .replyWindowCode => decide (v.toNat ≤ 7)
  | .idleWindow => true
  | .arbMode => decide (v.toNat ≤ 2)
  | .noticeOriginator => decide (v.toNat ≤ 3)
  | .managerSet => decide (v.toNat < 16)

/-- R168: the parameters that may be changed only in HALTED. -/
def ParamId.haltedOnly : ParamId → Bool
  | .renewalInterval | .stagger | .highWatermark | .panicWatermark | .wakeDebits => true
  | .replyWindowCode | .idleWindow | .arbMode | .commitPace | .claimTimeout | .stageTimeout
  | .overrangePotency | .conflictPotency | .brokenPotency | .noticeOriginator
  | .managerSet => false

end Sys2Proof

namespace Sys2Proof.Machine

/-- The potency of a condition (R94). -/
def Params.potency (p : Params) : Condition → Potency
  | .overrange => p.overrangePotency
  | .conflict => p.conflictPotency
  | .broken => p.brokenPotency

/-- Table 11-11: 0x00 POTENT, 0x01 IMPOTENT. -/
def potencyCode : Potency → Byte
  | .potent => 0x00
  | .impotent => 0x01

/-- The potency a value code names. -/
def potencyOf (b : Byte) : Potency := if b = 0x00 then .potent else .impotent

/-- Table 11-11: 0x00 FIXED, 0x01 ROTATE, 0x02 LEAD. -/
def arbModeCode : ArbMode → Byte
  | .fixed => 0x00
  | .rotate => 0x01
  | .lead => 0x02

/-- The arbitration mode a value code names. -/
def arbModeOf (b : Byte) : ArbMode :=
  if b = 0x00 then .fixed else if b = 0x01 then .rotate else .lead

/-- Table 11-11: 0x00 BURST, 0x01 YIELD. -/
def commitPaceCode : CommitPace → Byte
  | .burst => 0x00
  | .yield => 0x01

/-- The value code of a parameter (R171, Table 11-11). -/
def Params.get (p : Params) : ParamId → Byte
  | .renewalInterval => byteOf p.renewalInterval
  | .stagger => if p.stagger then 0x01 else 0x00
  | .highWatermark => byteOf p.highWatermark
  | .panicWatermark => byteOf p.panicWatermark
  | .wakeDebits => byteOf p.wakeDebits
  | .replyWindowCode => byteOf p.replyWindowCode
  | .idleWindow => byteOf p.idleWindow
  | .arbMode => arbModeCode p.arbMode
  | .commitPace => commitPaceCode p.commitPace
  | .claimTimeout => byteOf p.claimTimeout
  | .stageTimeout => byteOf p.stageTimeout
  | .overrangePotency => potencyCode p.overrangePotency
  | .conflictPotency => potencyCode p.conflictPotency
  | .brokenPotency => potencyCode p.brokenPotency
  | .noticeOriginator => byteOf p.noticeOriginator.val
  | .managerSet => p.managerSet.setWidth 8

/-- A parameter written with a value code that is in its range (R170). -/
def Params.set (p : Params) (i : ParamId) (v : Byte) : Params :=
  match i with
  | .renewalInterval => { p with renewalInterval := v.toNat }
  | .stagger => { p with stagger := v != 0x00 }
  | .highWatermark => { p with highWatermark := v.toNat }
  | .panicWatermark => { p with panicWatermark := v.toNat }
  | .wakeDebits => { p with wakeDebits := v.toNat }
  | .replyWindowCode => { p with replyWindowCode := v.toNat }
  | .idleWindow => { p with idleWindow := v.toNat }
  | .arbMode => { p with arbMode := arbModeOf v }
  | .commitPace => { p with commitPace := if v = 0x00 then .burst else .yield }
  | .claimTimeout => { p with claimTimeout := v.toNat }
  | .stageTimeout => { p with stageTimeout := v.toNat }
  | .overrangePotency => { p with overrangePotency := potencyOf v }
  | .conflictPotency => { p with conflictPotency := potencyOf v }
  | .brokenPotency => { p with brokenPotency := potencyOf v }
  | .noticeOriginator => { p with noticeOriginator := Fin.ofNat 4 v.toNat }
  | .managerSet => { p with managerSet := v.setWidth 4 }

/-- All items written together (R170). -/
def Params.setAll (p : Params) (items : List (ParamId × Byte)) : Params :=
  items.foldl (fun p i => p.set i.1 i.2) p

/-- An originator is in the manager set (R71). -/
def Params.isManager (p : Params) (o : Originator) : Bool := p.managerSet.getLsbD o.val

end Sys2Proof.Machine
end

