-- ==== Sys2Proof/Machine/Operands.lean ====
section
/-! DEFINITION. The arrival of a request frame: what every request passes before its own effect (R66 to R75,
R166). MALFORMED and NOT_PERMITTED are answered here; the checks that read a node entry and the OVERRANGE
check are functions that the kinds call. -/

namespace Sys2Proof.Machine

/-! ## Responses to a request -/

/-- The response frame to a request: its originator, tag and kind echoed (R81). -/
def replyTo (rq : Request) (k : ReqKind) (st : Status) (flags : RespFlags := {})
    (body : List Byte := []) : Response :=
  { originator := rq.originator, tag := rq.tag, kind := k.code, status := st, flags := flags,
    body := body }

/-- The end of an event that answers a request and brings no decision: the response, then the event's NOTICE
(R82, R149). -/
def answer (before : State) (r : Response) (after : State) : State :=
  closeEvent before (after.respond r)

/-- R68, R177: a fault of structure is counted and answered MALFORMED, echoing the kind byte. -/
def malformed (kind : Byte) (rq : Request) (s : State) : State :=
  answer s { originator := rq.originator, tag := rq.tag, kind := echoKind kind, status := .malformed }
    (s.count .trunkMalformed)

/-! ## Who takes the frame -/

/-- Request frames are taken unless RESET is held low (R164) or the TP is CLOSING (R84). -/
def State.takesFrames (s : State) : Bool := !s.resetLow && !s.tp.closing

/-- A node kind: well formed when addressed to a node and its body reads (R68, R69, R177); then `act` decides
it against the node. -/
def nodeRequest {α : Type} (k : ReqKind) (rd : List Byte → Option α) (rq : Request)
    (act : NodeIdx → α → State → State) (s : State) : State :=
  if s.takesFrames then
    match NodeIdx.ofAddr? rq.destination.toNat, rq.sizedBody.bind rd with
    | some n, some a => act n a s
    | _, _ => malformed k.code rq s
  else s

/-- A segment kind: destination 0, and open to every originator (R69). -/
def segmentRequest {α : Type} (k : ReqKind) (rd : List Byte → Option α) (rq : Request)
    (act : α → State → State) (s : State) : State :=
  if s.takesFrames then
    match rq.destination.toNat, rq.sizedBody.bind rd with
    | 0, some a => act a s
    | _, _ => malformed k.code rq s
  else s

/-- A management kind: destination 0, then the NOT_PERMITTED check (R71, R166, R167). -/
def managementRequest {α : Type} (k : ReqKind) (rd : List Byte → Option α) (rq : Request)
    (act : α → State → State) (s : State) : State :=
  segmentRequest k rd rq
    (fun a s =>
      if s.params.isManager rq.originator then act a s
      else answer s (replyTo rq k .notPermitted) s) s

/-! ## Arrival checks on a node entry (R70 to R72) -/

/-- R72, NODE_STATE: an ABSENT node refuses every node kind, a PARKED one the forwarded kinds and CLAIM. -/
def nodeStateRefuses (k : ReqKind) : NodeState → Bool
  | .absent => true
  | .parked => k.forwarded || k == .claim
  | .live | .lapsed | .silent => false

/-- R72, BAD_BIT: the bit index is at or above the point's width. -/
def badBit (r : PointRec) (b : Fin 16) : Bool :=
  match r.width with
  | some w => decide (w ≤ b.val)
  | none => false

/-- Checks 3 to 6 of R70, in their order: OFFLINE for the forwarded kinds, NODE_STATE, UNDECLARED for the
points named, BAD_BIT for the bit named, if any (with it, the point). The first that fails is the answer. -/
def arrivalCheck (s : State) (k : ReqKind) (n : NodeIdx) (pts : List PointIdx)
    (bit : Option (PointIdx × Fin 16)) : Option Status :=
  if k.forwarded && s.mode != .run then some .offline
  else if nodeStateRefuses k (s.node n).state then some .nodeState
  else if pts.any fun p => (s.point n p).width.isNone then some .undeclared
  else
    match bit with
    | some (p, b) => if badBit (s.point n p) b then some .badBit else none
    | none => none

/-! ## OVERRANGE (R73, R95) -/

/-- An item's value exceeds its point's width. -/
def itemExceeds (e : NodeEntry) (it : Item) : Bool :=
  match (e.point it.point).width with
  | some w => exceeds w it.value
  | none => false

/-- R95: an offending value replaced by its low bits; a value that fits left as it is. -/
def truncateItem (e : NodeEntry) (it : Item) : Item :=
  match (e.point it.point).width with
  | some w => if exceeds w it.value then { it with value := truncate w it.value } else it
  | none => it

/-- R98, R99: a potent refusal is counted and recorded; the point is the one that caused it. -/
def State.potentRefusal (s : State) (o : Originator) (tag : Byte) (k : ReqKind) (n : NodeIdx)
    (p : PointIdx) (c : Condition) : State :=
  let s' := s.count .potentRefusals
  let r : LastRefusal :=
    { originator := o, tag := tag, kind := k, node := n, point := p, condition := c }
  { s' with pou := { s'.pou with lastRefusal := some r } }

/-- R100: an impotent pass is counted and joins the impotent summary. -/
def State.impotentPass (s : State) (c : Condition) : State :=
  let s' := s.count .impotentWrites
  { s' with pou := { s'.pou with summary := s'.pou.summary.add c } }

/-- Check 7 of R70. Under POTENT the first offending item refuses the request. Otherwise the checks go on
with the items, truncated, and with whether OVERRANGE is let through. -/
def overrangeCheck (k : ReqKind) (rq : Request) (n : NodeIdx) (items : List Item)
    (go : List Item → CondSet → State → State) (s : State) : State :=
  match items.find? (itemExceeds (s.node n)) with
  | none => go items {} s
  | some it =>
    match s.params.overrangePotency with
    | .potent =>
      (s.potentRefusal rq.originator rq.tag k n it.point .overrange).respond (replyTo rq k .overrange)
    | .impotent =>
      go (items.map (truncateItem (s.node n))) { overrange := true } s

/-- The impotent pass of OVERRANGE, made once the request has passed checks 8 and 9 (R73, R100). -/
def State.passOverrange (s : State) (passed : CondSet) : State :=
  if passed.overrange then s.impotentPass .overrange else s

/-- Checks 3 to 6 first; a request that fails one is refused, and the others go on. -/
def afterArrivalCheck (k : ReqKind) (rq : Request) (n : NodeIdx) (pts : List PointIdx)
    (bit : Option (PointIdx × Fin 16)) (go : State → State) (s : State) : State :=
  match arrivalCheck s k n pts bit with
  | some st => answer s (replyTo rq k st) s
  | none => go s

/-! ## The forward queue at arrival (R75, R76) -/

/-- R75: no room for this originator: 16 entries, or 8 of its own. -/
def State.forwardFull (s : State) (o : Originator) : Bool :=
  decide (16 ≤ s.pou.forward.length) ||
    decide (8 ≤ (s.pou.forward.filter fun e => e.originator == o).length)

/-- Check 9 and the joining: refused BUSY and counted, or the OVERRANGE pass is made and the entry joins the
tail (R73, R75, R76). -/
def State.joinForward (s : State) (k : ReqKind) (rq : Request) (n : NodeIdx) (op : NodeOp)
    (passed : CondSet) : State :=
  if s.forwardFull rq.originator then
    (s.count .requestsBusy).respond (replyTo rq k .busy)
  else
    let s' := s.passOverrange passed
    let e : FwdEntry :=
      { originator := rq.originator, tag := rq.tag, node := n, op := op, passed := passed }
    { s' with pou := { s'.pou with forward := s'.pou.forward ++ [e] } }

end Sys2Proof.Machine
end

