-- ==== Sys2Proof/Machine/ForwardGrant.lean ====
section
/-! DEFINITION. The grant of the forward queue's head: the dynamic checks of R78 and what each of the four
forwarded kinds puts on the drop bus (R79, R86, R88, R89, R92, R96, R97, R110). -/

namespace Sys2Proof.Machine

/-- The request kind of a forward-queue entry. -/
def NodeOp.kind : NodeOp → ReqKind
  | .write _ => .write
  | .modify _ _ _ => .modify
  | .read _ => .read
  | .release _ => .release

/-- The response to a forward-queue entry: its conditions let through are its IMPOTENT set (R93). -/
def FwdEntry.reply (e : FwdEntry) (st : Status) : Response :=
  { originator := e.originator, tag := e.tag, kind := e.op.kind.code, status := st,
    flags := { passed := e.passed } }

/-- R26: the DBC starts a unicast transaction, with the window code in force. -/
def State.startUni (n : NodeIdx) (f : UniFrame) (s : State) : State :=
  let t : UniTxn :=
    { node := n, frame := f, window := s.params.replyWindowCode, cond := .transmitting,
      windowLeft := 0 }
  { s with dbc := { s.dbc with txn := some (.uni t) } }

/-- R26: the DBC starts a broadcast. -/
def State.startBroad (f : BroadFrame) (s : State) : State :=
  { s with dbc := { s.dbc with txn := some (.broad f) } }

/-- Where a request in hand stands after some of its checks: the state and the entry they left, and the status
that refuses it, if one does. -/
structure GrantCheck where
  state : State
  entry : FwdEntry
  refusal : Option Status

/-- R98: a condition found under POTENT at a grant. -/
def refusePotent (e : FwdEntry) (p : PointIdx) (c : Condition) (s : State) : GrantCheck :=
  { state := s.potentRefusal e.originator e.tag e.op.kind e.node p c
    entry := e
    refusal := some c.status }

/-- R100: a condition found under IMPOTENT at a grant. -/
def passImpotent (e : FwdEntry) (c : Condition) (s : State) : GrantCheck :=
  { state := s.impotentPass c, entry := { e with passed := e.passed.add c }, refusal := none }

/-- R78 check 5, R96: CONFLICT on the points the request carries, in frame order. -/
def conflictCheck (e : FwdEntry) (pts : List PointIdx) (s : State) : GrantCheck :=
  match pts.find? fun p => (s.point e.node p).pending.isSome with
  | none => { state := s, entry := e, refusal := none }
  | some p =>
    match s.params.conflictPotency with
    | .potent => refusePotent e p .conflict s
    | .impotent => passImpotent e .conflict s

/-- R78 check 3, R97, R110: BROKEN on a RELEASE's claim; a potent refusal removes the record. -/
def brokenCheck (e : FwdEntry) (p : PointIdx) (c : Claim) (s : State) : GrantCheck :=
  match c.state with
  | .intact => { state := s, entry := e, refusal := none }
  | .broken =>
    match s.params.brokenPotency with
    | .potent => refusePotent e p .broken (s.dropClaim e.node p)
    | .impotent => passImpotent e .broken s

/-- A grant of the forward queue refused at a check: answered, and the request is gone (R79). -/
def refuseGrant (e : FwdEntry) (st : Status) (s : State) : State × Bool :=
  (s.respond (e.reply st), false)

/-- A request in hand that passed its checks: held by the POU while its frame is transmitted (R79). -/
def startInHand (e : FwdEntry) (m : Option (Word × Bool)) (f : UniFrame) (s : State) : State × Bool :=
  let h : InHand := { entry := e, modified := m }
  (State.startUni e.node f { s with pou := { s.pou with inHand := some h } }, true)

/-- After the CONFLICT check: refused, or its WRITE is built. -/
def afterConflict (g : GrantCheck) (m : Option (Word × Bool)) (f : UniFrame) : State × Bool :=
  match g.refusal with
  | some st => refuseGrant g.entry st g.state
  | none => startInHand g.entry m f g.state

/-- R110: a RELEASE that passes every check marks its record releasing, and its WRITE is built. -/
def afterReleaseConflict (g : GrantCheck) (it : Item) : State × Bool :=
  match g.refusal with
  | some st => refuseGrant g.entry st g.state
  | none =>
    startInHand g.entry none (.write [it])
      (g.state.mapClaim g.entry.node it.point fun c => { c with releasing := true })

/-- R78, R79: the grant of an entry. The Boolean is whether the grant is used (R40). -/
def grantEntry (e : FwdEntry) (s : State) : State × Bool :=
  if (s.node e.node).state.inService then
    match e.op with
    | .read pts => startInHand e none (.read pts) s
    | .write its => afterConflict (conflictCheck e (its.map Item.point) s) none (.write its)
    | .modify p o b =>
      match (s.point e.node p).active with
      | none => refuseGrant e .unset s
      | some v =>
        let v' := o.apply b v
        afterConflict (conflictCheck e [p] s) (some (v', v' != v))
          (.write [{ point := p, value := v' }])
    | .release it =>
      match s.claimOf e.originator e.node it.point with
      | none => refuseGrant e .noClaim s
      | some c =>
        let g := brokenCheck e it.point c s
        match g.refusal with
        | some st => refuseGrant g.entry st g.state
        | none => afterReleaseConflict (conflictCheck g.entry [it.point] g.state) it
  else refuseGrant e .nodeState s

/-- R78: at a grant to FWD the head leaves the queue. -/
def grantFwd (s : State) : State × Bool :=
  match s.pou.forward with
  | [] => (s, true)
  | e :: rest => grantEntry e { s with pou := { s.pou with forward := rest } }

end Sys2Proof.Machine
end

