-- ==== Sys2Proof/Machine/RenewalScheduler.lean ====
section
/-! DEFINITION. The Renewal Scheduler: levels and the candidate (R49, R50), the contents of a RENEW (R52), debt
accrual (R44 to R47), node health at drop outcomes (R18, R53 to R61), and wake debits at RUN entry (R63). -/

namespace Sys2Proof.Machine

/-! ## Levels and the candidate -/

/-- R49: the renewal level of a node. -/
def levelOf (p : Params) (e : NodeEntry) : Option Level :=
  match e.state with
  | .lapsed => some .panic
  | .live =>
    if p.panicWatermark ≤ e.debt then some .panic
    else if p.highWatermark ≤ e.debt then some .high
    else if 1 ≤ e.debt then some .low
    else none
  | .silent => if e.probe = 0 then some .high else none
  | .parked | .absent => none

/-- The order of urgency of the levels. -/
def levelRank : Level → Nat
  | .low => 0
  | .high => 1
  | .panic => 2

/-- A node the RS may offer, with what decides the choice. -/
structure Offer where
  node : NodeIdx
  level : Level
  debt : Nat
  deriving DecidableEq, Repr

/-- R50 steps 1 and 2: a higher level, or at one level a higher debt. -/
def Offer.beats (a b : Offer) : Bool :=
  decide (levelRank b.level < levelRank a.level) ||
    (levelRank a.level == levelRank b.level && decide (b.debt < a.debt))

/-- R50 step 3: the addresses upward from the one after the last-renewed address, wrapping from 48 to 1. -/
def scanOrder (last : NodeIdx) : List NodeIdx :=
  (List.range 48).map fun k => Fin.ofNat 48 (last.val + 1 + k)

/-- What a node would be offered with, if it has a level. -/
def State.offerOf (s : State) (n : NodeIdx) : Option Offer :=
  (levelOf s.params (s.node n)).map fun l => { node := n, level := l, debt := (s.node n).debt }

/-- Of two, in scan order, the one R50 prefers: the later only if it beats the earlier. -/
def preferOffer (best new : Option Offer) : Option Offer :=
  match best, new with
  | some b, some a => if a.beats b then some a else some b
  | some b, none => some b
  | none, new => new

/-- R50: the renewal candidate, as the state stands. -/
def State.candidate (s : State) : Option Offer :=
  (scanOrder s.rs.lastRenewed).foldl (fun best n => preferOffer best (s.offerOf n)) none

/-- R52: the items of a RENEW: every held point whose active value is set, in ascending order. -/
def renewItems (e : NodeEntry) : List Item :=
  (List.finRange 16).filterMap fun p =>
    if (e.point p).held then (e.point p).active.map fun v => { point := p, value := v } else none

/-! ## Accrual -/

/-- R44: the phase event `p` is the accrual event of this node. -/
def accruesAt (stagger : Bool) (p : Fin 4) (n : NodeIdx) : Bool :=
  if stagger then n.addr % 4 == p.val else p == 0

/-- R45: the amount an accrual adds. -/
def accrualAmount (e : NodeEntry) : Nat :=
  match e.cls with
  | .relaxed => if e.alternation then 1 else 0
  | .standard => 1
  | .tight | .dropped => 2

/-- R45, R46, R47: a node's accrual event: its entry after, and the record it queues, if any. -/
def accrue (n : NodeIdx) (e : NodeEntry) : NodeEntry × Option ExcBody :=
  match e.state with
  | .live | .lapsed =>
    let d := e.debt + accrualAmount e
    let e' : NodeEntry := { e with alternation := if e.cls = .relaxed then !e.alternation else e.alternation }
    if 8 < d then
      ({ e' with debt := 8, state := .lapsed },
        if e.state = .live then some (.lapse n .overdue) else none)
    else ({ e' with debt := d }, none)
  | .silent => ({ e with probe := e.probe - 1 }, none)
  | .parked | .absent => (e, none)

/-- The nodes whose accrual event phase event `p` is, in ascending order of address (R44, R45). -/
def State.accrualNodes (s : State) (p : Fin 4) : List NodeIdx :=
  (List.finRange 48).filter fun n => accruesAt s.params.stagger p n

/-- The accruals of phase event `p` (R45). -/
def State.accrueAll (p : Fin 4) (s : State) : State :=
  (s.accrualNodes p).foldl (fun s n => s.setNode n (accrue n (s.node n)).1) s

/-- The records of the accruals of phase event `p`, in ascending order of address (R45). -/
def State.accrualRecords (s : State) (p : Fin 4) : List ExcBody :=
  (s.accrualNodes p).filterMap fun n => (accrue n (s.node n)).2

/-! ## Node health at drop outcomes -/

/-- R55 to R60: the entry of a LIVE, LAPSED or SILENT node after a valid reply. -/
def healthReply (wake : Nat) (isRenew accepted : Bool) (c : HoldClass) (e : NodeEntry) : NodeEntry :=
  let d := if e.state = .silent then max e.debt wake else e.debt
  { e with
    cls := c
    silence := 0
    debt := if accepted then d - 1 else d
    state := if c = .dropped then .lapsed else .live
    probe := if e.state = .silent && isRenew then 8 else e.probe }

/-- R57: the record a valid reply queues. -/
def healthRecord (n : NodeIdx) (c : HoldClass) (st : NodeState) : Option ExcBody :=
  match st, c with
  | .live, .dropped | .silent, .dropped => some (.lapse n .dropped)
  | .lapsed, .relaxed | .lapsed, .standard | .lapsed, .tight
  | .silent, .relaxed | .silent, .standard | .silent, .tight => some (.restored n)
  | .live, .relaxed | .live, .standard | .live, .tight | .lapsed, .dropped
  | .absent, _ | .parked, _ => none

/-- A record, if any, is offered. -/
def State.offer? (b : Option ExcBody) (s : State) : State :=
  match b with
  | some b => s.offer b
  | none => s

/-- R18, R55 to R60: a valid reply at the node-health rules. -/
def State.healthValid (n : NodeIdx) (isRenew accepted : Bool) (c : HoldClass) (s : State) : State :=
  let e := s.node n
  match e.state with
  | .live | .lapsed | .silent =>
    (s.setNode n (healthReply s.params.wakeDebits isRenew accepted c e)).offer?
      (healthRecord n c e.state)
  | .parked => s.setNode n { e with cls := c }
  | .absent => s

/-- R18, R58, R59: a NO_REPLY outcome at the node-health rules. -/
def State.healthNoReply (n : NodeIdx) (isRenew : Bool) (s : State) : State :=
  let e := s.node n
  match e.state with
  | .live | .lapsed =>
    if e.silence + 1 = 3 then
      (s.setNode n { e with silence := 3, state := .silent, probe := 8 }).offer (.silent n)
    else s.setNode n { e with silence := e.silence + 1 }
  | .silent => if isRenew then s.setNode n { e with probe := 8 } else s
  | .parked | .absent => s

/-- R54: the node-health rules at the outcome of any unicast transaction. -/
def State.health (n : NodeIdx) (isRenew : Bool) (o : DropOutcome) (s : State) : State :=
  match o with
  | .accepted c _ => s.healthValid n isRenew true c
  | .refused c => s.healthValid n isRenew false c
  | .noReply => s.healthNoReply n isRenew

/-- R53: the RS as owner of a RENEW. -/
def State.renewOutcome (n : NodeIdx) (o : DropOutcome) (s : State) : State :=
  if (s.node n).state.inService then
    match o with
    | .accepted _ _ => s.count .renewalsAccepted
    | .refused _ => s.offer (.renewRefused n)
    | .noReply => s
  else s

/-! ## RUN entry -/

/-- R63: at RUN entry a LIVE or LAPSED node has at least the wake debits as its debt. -/
def wakeEntry (wake : Nat) (e : NodeEntry) : NodeEntry :=
  match e.state with
  | .live | .lapsed => { e with debt := max e.debt wake }
  | .silent | .parked | .absent => e

/-- R63: the wake debits applied to every node. -/
def State.wakeAll (s : State) : State :=
  { s with nodes := s.nodes.map (wakeEntry s.params.wakeDebits) }

end Sys2Proof.Machine
end

