-- ==== Sys2Proof/Machine/Arbiter.lean ====
section
/-! DEFINITION. The arbiter of the drop bus: when it decides (R35), who wins (R36, R37), what a grant does to the
lists and the marker (R38, R39), the grants themselves (R26, R40), and a run of decisions through unused
grants. -/

namespace Sys2Proof.Machine

/-! ## Who waits (R34) -/

/-- RNW waits at this level. -/
def State.rnwAt (s : State) (l : Level) : Bool :=
  match s.candidate with
  | some o => o.level == l
  | none => false

/-- FWD waits. -/
def State.fwdWaits (s : State) : Bool := !s.pou.forward.isEmpty

/-- CMT waits. -/
def State.cmtWaits (s : State) : Bool := s.cmtWork.isSome

/-- RNW waits. -/
def State.rnwWaits (s : State) : Bool := s.candidate.isSome

/-! ## The winner (R36, R37, R39) -/

/-- The step of R36 that found the winner. -/
inductive GrantStep | panic | shared | low
  deriving DecidableEq, Repr

/-- R39: CMT is held back for this decision. -/
def State.cmtHeld (s : State) : Bool :=
  s.params.commitPace == .yield && s.dbc.yieldMarker && (s.fwdWaits || s.rnwAt .high)

/-- R36 step 2: a requester is eligible. -/
def State.eligible (s : State) : Requester → Bool
  | .fwd => s.fwdWaits
  | .cmt => s.cmtWaits && !s.cmtHeld
  | .rnw => s.rnwAt .high

/-- R37: the arbitration mode's choice among the eligible requesters. -/
def State.choose (s : State) : Option Requester :=
  match s.params.arbMode with
  | .fixed => [Requester.cmt, .fwd, .rnw].find? s.eligible
  | .rotate => s.dbc.rotation.find? s.eligible
  | .lead => if s.eligible .cmt then some .cmt else s.dbc.lead.find? s.eligible

/-- R36: the winner of a decision and the step that found it. None while the bus is not FREE or the mode is
HALTED (R35), or when no step finds a winner. -/
def State.winner (s : State) : Option (Requester × GrantStep) :=
  if s.busFree && s.mode != .halted then
    if s.rnwAt .panic then some (.rnw, .panic)
    else
      match s.choose with
      | some r => some (r, .shared)
      | none => if s.rnwAt .low && s.idleElapsed then some (.rnw, .low) else none
  else none

/-! ## What a grant does to the arbiter (R38, R39) -/

/-- A requester moved to the end of a list, the others keeping their order. -/
def moveToEnd (r : Requester) (l : List Requester) : List Requester :=
  l.filter (fun x => x != r) ++ l.filter (fun x => x == r)

/-- R38, R39: a grant moves the list in use, if made in step 2, and sets or clears the yield marker. -/
def State.bookGrant (r : Requester) (st : GrantStep) (s : State) : State :=
  let d := s.dbc
  let rotation :=
    if st = .shared ∧ s.params.arbMode = .rotate then moveToEnd r d.rotation else d.rotation
  let lead :=
    if st = .shared ∧ s.params.arbMode = .lead then moveToEnd r d.lead else d.lead
  { s with dbc := { d with rotation := rotation, lead := lead, yieldMarker := r == .cmt } }

/-! ## Grants (R26, R40) -/

/-- R52, R50: the grant of a RENEW. -/
def grantRnw (s : State) : State × Bool :=
  match s.candidate with
  | none => (s, true)
  | some o =>
    (State.startUni o.node (.renew (renewItems (s.node o.node)))
      { s with rs := { s.rs with lastRenewed := o.node } }, true)

/-- R128, R130, R133, R134: the grant of the CE's next transaction. A LOAD whose node is not LIVE or LAPSED
fails the commit, and its grant is unused. -/
def grantCmt (s : State) : State × Bool :=
  match s.cmtWork with
  | none => (s, true)
  | some .clear => (s.startBroad (.abandon 0), true)
  | some (.take t) => (s.startBroad (.take t), true)
  | some (.abandon t) => (s.startBroad (.abandon t), true)
  | some (.load c n t) =>
    match (s.node n).state with
    | .live | .lapsed =>
      (s.startUni n (.load t (loadItems (s.stage c.originator).entries n)), true)
    | .parked | .silent | .absent => (s.failCommit c n .nodeState, false)

/-- A grant to a requester: the state after it and whether it is used. -/
def grant (r : Requester) (s : State) : State × Bool :=
  match r with
  | .fwd => grantFwd s
  | .cmt => grantCmt s
  | .rnw => grantRnw s

/-- One decision that finds a winner: the grant, the end of the drain if the grant brings it (R158), and the
NOTICE of this event. -/
def State.decideGrant (r : Requester) (st : GrantStep) (s : State) : State × Bool :=
  let g := grant r (s.bookGrant r st)
  (closeEvent s g.1.endDrain, g.2)

/-- Decisions one after another for as long as their grants are unused (R40), at most `k` of them. -/
def State.decisions : Nat → State → State
  | 0, s => s
  | k + 1, s =>
    match s.winner with
    | none => s
    | some (r, st) =>
      let g := s.decideGrant r st
      if g.2 then g.1 else State.decisions k g.1

/-- How many decisions a run can take: each unused grant removes a forward-queue entry, or fails the commit in
flight and so takes a stage off the commit queue or leaves no LOAD to present. -/
def State.decisionBound (s : State) : Nat := s.pou.forward.length + s.ce.queue.length + 2

/-- A decision event of the arbiter: the decision and those that unused grants bring. -/
def State.arbitrate (s : State) : State := s.decisions s.decisionBound

/-! ## When the arbiter decides (R35) -/

/-- R35: between the two states a requester began to wait, or RNW's level changed. -/
def beginsToWait (before after : State) : Bool :=
  (after.fwdWaits && !before.fwdWaits) || (after.cmtWaits && !before.cmtWaits) ||
    (after.rnwWaits && after.candidate.map Offer.level != before.candidate.map Offer.level)

/-- R35: the event from `before` to `after` is a decision event: the bus is FREE, some requester waits, and the
bus has just become FREE, or a requester has just begun to wait or changed its level. -/
def decisionDue (before after : State) : Bool :=
  after.busFree && (after.fwdWaits || after.cmtWaits || after.rnwWaits) &&
    (!before.busFree || beginsToWait before after)

/-- The end of an event that can change the mode or bring a decision: the drain ends if it can (R158), the
event's NOTICE is generated (R149), and the arbiter decides if the event is a decision event (R35). -/
def finish (before after : State) : State :=
  let s := closeEvent before after.endDrain
  if decisionDue before s then s.arbitrate else s

end Sys2Proof.Machine
end

