-- ==== Sys2Proof/Machine/ClaimRequests.lean ====
section
/-! DEFINITION. RELEASE at its arrival, CLAIM and UNCLAIM (chapter 6). -/

namespace Sys2Proof.Machine

/-- R109: check 8 of a RELEASE, and then its joining. -/
def releaseArrival (rq : Request) (n : NodeIdx) (it : Item) (passed : CondSet) (s : State) : State :=
  match s.claimOf rq.originator n it.point with
  | none => s.respond (replyTo rq .release .noClaim)
  | some _ => s.joinForward .release rq n (.release it) passed

/-- R109: the arrival of a RELEASE. -/
def releaseRequest (rq : Request) (s : State) : State :=
  nodeRequest .release readItemBody rq
    (fun n it s =>
      afterArrivalCheck .release rq n [it.point] none
        (fun s =>
          finish s
            (overrangeCheck .release rq n [it]
              (fun its passed s => releaseArrival rq n (its.headD it) passed s) s)) s) s

/-- R105: the flags of a CLAIM answered OK. -/
def claimFlags (r : PointRec) : RespFlags :=
  { unset := r.active.isNone, pending := r.pending.isSome }

/-- A value in two bytes, or nothing when it is UNSET (Table 11-4, CLAIM and UNCLAIM). -/
def claimedBytes (v : Option Word) : List Byte :=
  match v with
  | some w => wordBytes w
  | none => []

/-- R104 step 2: a renewed record. -/
def renewClaim (v : Option Word) (life : Nat) (c : Claim) : Claim :=
  { c with value := v, state := .intact, life := life }

/-- R104: a CLAIM decided against the table. -/
def decideClaim (rq : Request) (n : NodeIdx) (p : PointIdx) (s : State) : State :=
  let r := s.point n p
  let ok := replyTo rq .claim .ok (claimFlags r) (claimedBytes r.active)
  match s.claimOn n p with
  | some c =>
    if c.originator = rq.originator then
      answer s ok (s.mapClaim n p (renewClaim r.active s.params.claimTimeout))
    else answer s (replyTo rq .claim .claimed {} [byteOf c.originator.val]) s
  | none =>
    if 8 ≤ s.claims.length then answer s (replyTo rq .claim .claimFull) s
    else
      let c : Claim :=
        { originator := rq.originator, node := n, point := p, value := r.active, state := .intact,
          releasing := false, life := s.params.claimTimeout }
      answer s ok { s with claims := s.claims ++ [c] }

/-- R104: a CLAIM. -/
def claimRequest (rq : Request) (s : State) : State :=
  nodeRequest .claim readPointBody rq
    (fun n p s => afterArrivalCheck .claim rq n [p] none (decideClaim rq n p) s) s

/-- Table 11-4, UNCLAIM: the claim state code. -/
def claimStateCode : ClaimState → Byte
  | .intact => 0x00
  | .broken => 0x01

/-- R106: an UNCLAIM decided against the table. -/
def decideUnclaim (rq : Request) (n : NodeIdx) (p : PointIdx) (s : State) : State :=
  match s.claimOf rq.originator n p with
  | none => answer s (replyTo rq .unclaim .noClaim) s
  | some c =>
    if c.releasing then answer s (replyTo rq .unclaim .busy) s
    else
      answer s
        (replyTo rq .unclaim .ok { unset := c.value.isNone }
          (claimStateCode c.state :: claimedBytes c.value))
        (s.dropClaim n p)

/-- R106: an UNCLAIM. -/
def unclaimRequest (rq : Request) (s : State) : State :=
  nodeRequest .unclaim readPointBody rq
    (fun n p s => afterArrivalCheck .unclaim rq n [p] none (decideUnclaim rq n p) s) s

/-! ## The commands -/

/-- RELEASE. -/
def execRelease (rq : Request) (s : State) : Host.Outcome State Fault Refusal :=
  .next (releaseRequest rq s)

/-- CLAIM. -/
def execClaim (rq : Request) (s : State) : Host.Outcome State Fault Refusal :=
  .next (claimRequest rq s)

/-- UNCLAIM. -/
def execUnclaim (rq : Request) (s : State) : Host.Outcome State Fault Refusal :=
  .next (unclaimRequest rq s)

end Sys2Proof.Machine
end

