-- ==== Sys2Proof/Machine/DropBus.lean ====
section
/-! DEFINITION. The drop bus: the ends of transmission (R27, R31), frames received (R28, R29), the reply window
(R30), and the outcome handed to its owner and to the node-health rules (R32). -/

namespace Sys2Proof

/-- The status of a request whose transaction ended so (R80). -/
def DropOutcome.status : DropOutcome → Status
  | .accepted _ _ => .ok
  | .refused _ => .nodeRefused
  | .noReply => .noReply

end Sys2Proof

namespace Sys2Proof.Machine

/-! ## The POU's outcome (R80, R87, R92, R112) -/

/-- R87: one value-setting event per item, in item order. -/
def State.applyWrite (n : NodeIdx) (items : List Item) (s : State) : State :=
  items.foldl (fun s it => s.setActive n it.point it.value .write) s

/-- R112, R113: the bound record of a RELEASE is the sender's record for the point that is releasing. -/
def boundTo (e : FwdEntry) (p : PointIdx) (c : Claim) : Bool :=
  c.on e.node p && c.originator == e.originator && c.releasing

/-- R112: ACCEPTED removes the bound record. -/
def State.removeBound (e : FwdEntry) (p : PointIdx) (s : State) : State :=
  { s with claims := s.claims.filter fun c => !boundTo e p c }

/-- R112: REFUSED and NO_REPLY clear the releasing mark of the bound record. -/
def State.unbind (e : FwdEntry) (p : PointIdx) (s : State) : State :=
  { s with claims := s.claims.map fun c => if boundTo e p c then { c with releasing := false } else c }

/-- R112, R113: what a RELEASE's outcome does to its claim, before any value-setting event. -/
def State.releaseOutcome (e : FwdEntry) (o : DropOutcome) (s : State) : State :=
  match e.op with
  | .release it =>
    match o with
    | .accepted _ _ => s.removeBound e it.point
    | .refused _ | .noReply => s.unbind e it.point
  | .write _ | .modify _ _ _ | .read _ => s

/-- R80, R87, R112: the outcome of a WRITE transaction at the POU. -/
def State.writeOutcome (n : NodeIdx) (items : List Item) (o : DropOutcome) (s : State) : State :=
  match s.pou.inHand with
  | none => s
  | some h =>
    let s1 := { s with pou := { s.pou with inHand := none } }
    let s2 := s1.releaseOutcome h.entry o
    let s3 :=
      match o with
      | .accepted _ _ => s2.applyWrite n items
      | .refused _ | .noReply => s2
    s3.respond { h.entry.reply o.status with
      flags := modifyFlags h.entry.passed h.modified
      body := modifyRespBody h.modified }

/-- R92: the body of an OK response to a READ. -/
def readRespBody (e : NodeEntry) (pts : List PointIdx) (vs : List Word) : List Byte :=
  byteOf vs.length :: vs.flatMap wordBytes ++
    wordBytes (maskOf (List.zipWith (fun p v => mismatch (e.point p).active v) pts vs))

/-- R80, R92: the outcome of a READ transaction at the POU. -/
def State.readOutcome (n : NodeIdx) (pts : List PointIdx) (o : DropOutcome) (s : State) : State :=
  match s.pou.inHand with
  | none => s
  | some h =>
    State.respond
      { h.entry.reply o.status with
        body :=
          match o with
          | .accepted _ vs => readRespBody (s.node n) pts vs
          | .refused _ | .noReply => [] }
      { s with pou := { s.pou with inHand := none } }

/-! ## The outcome event (R32) -/

/-- R32: the owner's part in an outcome. -/
def State.ownerOutcome (t : UniTxn) (o : DropOutcome) (s : State) : State :=
  match t.frame with
  | .write items => s.writeOutcome t.node items o
  | .read pts => s.readOutcome t.node pts o
  | .renew _ => s.renewOutcome t.node o
  | .load tag items => s.loadOutcome t.node tag items o

/-- The transaction is a RENEW. -/
def UniFrame.isRenew : UniFrame → Bool
  | .renew _ => true
  | .write _ | .read _ | .load _ _ => false

/-- R28, R30, R32: the bus becomes FREE, the owner applies the outcome, and then the node-health rules do. -/
def State.handOver (t : UniTxn) (o : DropOutcome) (s : State) : State :=
  (s.freeBus.ownerOutcome t o).health t.node t.frame.isRenew o

/-- The point count of a READ (R178). -/
def UniFrame.readCount : UniFrame → Option Nat
  | .read pts => some pts.length
  | .write _ | .renew _ | .load _ _ => none

/-- A frame received on the drop bus: counted while FREE (R29); not heard while TRANSMITTING (R26); checked
while AWAITING, where a valid reply ends the transaction and any other is counted (R28, R178). -/
def State.dropReceive (f : List Byte) (s : State) : State :=
  match s.dbc.txn with
  | none => finish s (s.count .dropReplyFaults)
  | some (.broad _) => s
  | some (.uni t) =>
    match t.cond with
    | .transmitting => s
    | .awaiting =>
      match readReply t.node.addr t.frame.readCount f with
      | none => finish s (s.count .dropReplyFaults)
      | some o => finish s (s.handOver t o)

/-- R30: the reply window expires while AWAITING. -/
def State.windowExpire (s : State) : State :=
  match s.dbc.txn with
  | some (.uni t) =>
    match t.cond with
    | .awaiting => finish s ((s.count .dropNoReply).handOver t .noReply)
    | .transmitting => s
  | some (.broad _) => s
  | none => s

/-! ## Ends of transmission -/

/-- R27: the reply window of a code, in units of 10 µs: 100 µs doubled by each step of the code. -/
def windowTicks (code : Nat) : Nat := 10 * 2 ^ code

/-- R27: the last byte of a unicast frame has left the part. -/
def State.unicastEnd (s : State) : State :=
  match s.dbc.txn with
  | some (.uni t) =>
    match t.cond with
    | .transmitting =>
      let t' : UniTxn := { t with cond := .awaiting, windowLeft := windowTicks t.window }
      { s with dbc := { s.dbc with txn := some (.uni t') } }
    | .awaiting => s
  | some (.broad _) => s
  | none => s

/-- R31, R133: the end of a TAKE's transmission. -/
def State.takeTransmitted (s : State) : State :=
  match s.dbc.txn with
  | some (.broad (.take t)) => finish s (s.freeBus.takeEnded t)
  | some (.broad (.abandon _)) | some (.uni _) | none => s

/-- R31, R134: the end of the transmission of a failed commit's ABANDON; its tag is not 0. -/
def State.abandonTransmitted (s : State) : State :=
  match s.dbc.txn with
  | some (.broad (.abandon t)) => if t = 0 then s else finish s (s.freeBus.abandonEnded t)
  | some (.broad (.take _)) | some (.uni _) | none => s

/-- R31, R128: the end of the transmission of a CLEAR, an ABANDON with tag 0. -/
def State.clearTransmitted (s : State) : State :=
  match s.dbc.txn with
  | some (.broad (.abandon t)) => if t = 0 then finish s s.freeBus.clearEnded else s
  | some (.broad (.take _)) | some (.uni _) | none => s

/-! ## The idle window (R33, R35) -/

/-- The idle timer reaches the idle window while the bus is FREE: it stands at the window at least, and the
arbiter decides. -/
def State.idleWindowReached (s : State) : State :=
  if s.busFree then
    State.arbitrate
      { s with dbc := { s.dbc with idleTimer := max s.dbc.idleTimer s.params.idleWindow } }
  else s

end Sys2Proof.Machine
end

