-- ==== Sys2Proof/Machine/Time.lean ====
section
/-! DEFINITION. Time: phase events and interval expiries (R42 to R47), the aging of claims (R114) and stages
(R123), and the passing of 10 µs, which is what a step does when no command waits. -/

namespace Sys2Proof.Machine

/-! ## Aging at an interval expiry -/

/-- R114, R111: a record after one expiry; a releasing record is not aged. -/
def Claim.aged (c : Claim) : Claim := if c.releasing then c else { c with life := c.life - 1 }

/-- R114: a record whose life has reached 0 by aging. -/
def Claim.expired (c : Claim) : Bool := !c.releasing && c.life == 0

/-- Ascending node address, then ascending point index (R114). -/
def Claim.le (a b : Claim) : Bool :=
  decide (a.node.val < b.node.val) || (a.node == b.node && decide (a.point.val ≤ b.point.val))

/-- R114: the claims after an interval expiry. -/
def State.ageClaims (s : State) : State :=
  { s with claims := (s.claims.map Claim.aged).filter fun c => !c.expired }

/-- R114: the records of the claims that expire, by node and point. -/
def State.claimRecords (s : State) : List ExcBody :=
  (((s.claims.map Claim.aged).filter Claim.expired).insertionSort fun a b => a.le b).map
    fun c => .claimExpired c.node c.point c.originator

/-- R123: an OPEN stage that expires at this expiry. -/
def Stage.expires (g : Stage) : Bool := g.state == .opened && g.life.getD 0 ≤ 1

/-- R123: a stage after an interval expiry: an OPEN one ages, and is CLOSED and emptied when its life reaches
0. -/
def Stage.aged (g : Stage) : Stage :=
  match g.state with
  | .opened => if g.expires then {} else { g with life := g.life.map (· - 1) }
  | .closed | .queued | .committing => g

/-- R123: the stages after an interval expiry. -/
def State.ageStages (s : State) : State := { s with stages := s.stages.map Stage.aged }

/-- R123: the records of the stages that expire, by originator. -/
def State.stageRecords (s : State) : List ExcBody :=
  ((List.finRange 4).filter fun o => (s.stage o).expires).map
    fun o => .stageExpired o (s.stage o).entries.length

/-! ## The order of the records (R43) -/

/-- The three groups of records merged: each keeps its own order, and as long as two have records left the
free value at index `i` says which gives the next. Answers the list and the next index. -/
def interleave (pick : Nat → Nat) :
    Nat → Nat → List ExcBody → List ExcBody → List ExcBody → List ExcBody × Nat
  | 0, i, a, b, c => (a ++ b ++ c, i)
  | k + 1, i, a, b, c =>
    if (a.isEmpty && b.isEmpty) || (a.isEmpty && c.isEmpty) || (b.isEmpty && c.isEmpty) then
      (a ++ b ++ c, i)
    else
      match pick i % 3, a, b, c with
      | 0, x :: a, b, c => let r := interleave pick k (i + 1) a b c; (x :: r.1, r.2)
      | 1, a, y :: b, c => let r := interleave pick k (i + 1) a b c; (y :: r.1, r.2)
      | 2, a, b, z :: c => let r := interleave pick k (i + 1) a b c; (z :: r.1, r.2)
      | _, x :: a, b, c => let r := interleave pick k (i + 1) a b c; (x :: r.1, r.2)
      | _, [], y :: b, c => let r := interleave pick k (i + 1) [] b c; (y :: r.1, r.2)
      | _, [], [], c => (c, i)

/-- Several records offered one after another. -/
def State.offerAll (bs : List ExcBody) (s : State) : State := bs.foldl (fun s b => s.offer b) s

/-- The records of one phase event offered, the three groups in an order left open (R43). -/
def State.offerGroups (a b c : List ExcBody) (s : State) : State :=
  let r := interleave Config.recordGroup (a.length + b.length + c.length) s.freeIndex a b c
  State.offerAll r.1 { s with freeIndex := r.2 }

/-! ## Phase events -/

/-- R42: the phase counter advances and the next quarter begins with the renewal interval in force; phase event
0 is the interval expiry and adds 1 to the interval count (R43). A quarter of 1 ms is 25 units of 10 µs. -/
def State.advancePhase (s : State) : State :=
  let p := s.rs.phase + 1
  { s with rs := { s.rs with
      phase := p
      quarterLeft := 25 * s.params.renewalInterval
      intervalCount := if p = 0 then s.rs.intervalCount + 1 else s.rs.intervalCount } }

/-- R45, R47, R160: outside HALTED the nodes of the phase accrue debt or count down their probes. -/
def State.accruePhase (s : State) : State :=
  if s.mode = .halted then s else s.accrueAll s.rs.phase

/-- R114, R123: an interval expiry ages claims and OPEN stages. -/
def State.agePhase (s : State) : State :=
  if s.rs.phase = 0 then s.ageClaims.ageStages else s

/-- R42, R43: a phase event. The counter and the count are advanced first, so every record of the event
carries the new count. -/
def State.phaseStep (s : State) : State :=
  let s' := s.advancePhase
  let claims := if s'.rs.phase = 0 then s'.claimRecords else []
  let stages := if s'.rs.phase = 0 then s'.stageRecords else []
  let lapses := if s'.mode = .halted then [] else s'.accrualRecords s'.rs.phase
  s'.accruePhase.agePhase.offerGroups claims stages lapses

/-- A phase event, with the NOTICE and the decision it brings. -/
def State.phaseEvent (s : State) : State := finish s s.phaseStep

/-! ## The passing of time -/

/-- 10 µs on the three timers: the quarter in progress, the reply window while AWAITING, the idle timer while
FREE (R27, R33, R42). -/
def State.advanceTimers (s : State) : State :=
  let txn :=
    match s.dbc.txn with
    | some (.uni t) =>
      if t.cond = .awaiting then some (Txn.uni { t with windowLeft := t.windowLeft - 1 })
      else some (.uni t)
    | some (.broad f) => some (.broad f)
    | none => none
  { s with
    rs := { s.rs with quarterLeft := s.rs.quarterLeft - 1 }
    dbc := { s.dbc with
      txn := txn
      idleTimer := if s.busFree then min (s.dbc.idleTimer + 1) 255 else s.dbc.idleTimer } }

/-- The reply window has run out. -/
def State.windowOut (s : State) : Bool :=
  match s.dbc.txn with
  | some (.uni t) => t.cond == .awaiting && t.windowLeft == 0
  | some (.broad _) | none => false

/-- The timer of the drop bus that runs out at this moment, if one does: the reply window, or the idle timer
reaching the idle window. -/
def State.busTimer (idleNow : Bool) (s : State) : State :=
  if s.windowOut then s.windowExpire
  else if idleNow && s.busFree then s.arbitrate
  else s

/-- 10 µs pass. While RESET is held low nothing elapses (R164). When the phase event and a timer of the drop
bus fall together, a free value says which is taken first. -/
def State.tick (s : State) : State :=
  if s.resetLow then s
  else
    let s1 := s.advanceTimers
    let idleNow := s.busFree && s.dbc.idleTimer + 1 == s.params.idleWindow
    let phaseDue := s1.rs.quarterLeft == 0
    let busDue := s1.windowOut || idleNow
    if phaseDue && busDue then
      let s2 := { s1 with freeIndex := s1.freeIndex + 1 }
      if Config.phaseFirst s1.freeIndex then State.busTimer idleNow s2.phaseEvent
      else State.phaseEvent (State.busTimer idleNow s2)
    else if phaseDue then s1.phaseEvent
    else if busDue then s1.busTimer idleNow
    else s1

end Sys2Proof.Machine
end

