-- ==== Sys2Proof/Machine/Events.lean ====
section
/-! DEFINITION. The commands of the drop bus, of the timers and of the part's own steps. While RESET is held low
the part takes none of them (R164). -/

namespace Sys2Proof.Machine

/-- R164: an event that is not taken while RESET is held low. -/
def unlessReset (f : State → State) (s : State) : State := if s.resetLow then s else f s

/-- R129: the taking of a commit as an event of its own. -/
def State.commitTakenEvent (s : State) : State := finish s s.takeCommit

/-- R158: the end of the drain as an event of its own. -/
def State.drainEndEvent (s : State) : State := closeEvent s s.endDrain

/-- R43: the interval expiry, which is the phase event after phase 3. -/
def State.intervalExpiryEvent (s : State) : State := if s.rs.phase = 3 then s.phaseEvent else s

/-- ARBITER_DECISION. -/
def execArbiterDecision (s : State) : Host.Outcome State Fault Refusal :=
  .next (unlessReset State.arbitrate s)

/-- IDLE_WINDOW_ELAPSED. -/
def execIdleWindowElapsed (s : State) : Host.Outcome State Fault Refusal :=
  .next (unlessReset State.idleWindowReached s)

/-- UNICAST_TRANSMISSION_END. -/
def execUnicastTransmissionEnd (s : State) : Host.Outcome State Fault Refusal :=
  .next (unlessReset State.unicastEnd s)

/-- TAKE_TRANSMISSION_END. -/
def execTakeTransmissionEnd (s : State) : Host.Outcome State Fault Refusal :=
  .next (unlessReset State.takeTransmitted s)

/-- ABANDON_TRANSMISSION_END. -/
def execAbandonTransmissionEnd (s : State) : Host.Outcome State Fault Refusal :=
  .next (unlessReset State.abandonTransmitted s)

/-- CLEAR_TRANSMISSION_END. -/
def execClearTransmissionEnd (s : State) : Host.Outcome State Fault Refusal :=
  .next (unlessReset State.clearTransmitted s)

/-- DROP_REPLY_TAKEN. -/
def execDropReplyTaken (f : List Byte) (s : State) : Host.Outcome State Fault Refusal :=
  .next (unlessReset (State.dropReceive f) s)

/-- FREE_FRAME_RECEIVED. -/
def execFreeFrameReceived (f : List Byte) (s : State) : Host.Outcome State Fault Refusal :=
  .next (unlessReset (State.dropReceive f) s)

/-- REPLY_WINDOW_EXPIRY. -/
def execReplyWindowExpiry (s : State) : Host.Outcome State Fault Refusal :=
  .next (unlessReset State.windowExpire s)

/-- PHASE_EVENT. -/
def execPhaseEvent (s : State) : Host.Outcome State Fault Refusal :=
  .next (unlessReset State.phaseEvent s)

/-- INTERVAL_EXPIRY. -/
def execIntervalExpiry (s : State) : Host.Outcome State Fault Refusal :=
  .next (unlessReset State.intervalExpiryEvent s)

/-- COMMIT_TAKEN. -/
def execCommitTaken (s : State) : Host.Outcome State Fault Refusal :=
  .next (unlessReset State.commitTakenEvent s)

/-- DRAIN_END. -/
def execDrainEnd (s : State) : Host.Outcome State Fault Refusal :=
  .next (unlessReset State.drainEndEvent s)

end Sys2Proof.Machine
end

