-- ==== Sys2Proof/Machine/Layout.lean ====
section
/-! DEFINITION. The layouts of what the part sends (R175, sections 11.3 to 11.5): response and NOTICE frames,
drop frames, exception records, point records and the status bodies. -/

namespace Sys2Proof.Machine

/-- A flag as a byte, 0x00 or 0x01. -/
def boolByte (b : Bool) : Byte := if b then 0x01 else 0x00

/-- Byte 0 of a frame to an originator: bits 7..6 (section 11.3). -/
def originatorByte (o : Originator) : Byte := byteOf (o.val * 64)

/-- The bytes of a frame of the transmit queue, with its check (section 11.3). -/
def TrunkFrame.bytes : TrunkFrame → List Byte
  | .response r =>
    withCheck ([originatorByte r.originator, r.tag, r.kind, r.status.code, r.flags.byte,
      byteOf r.body.length] ++ r.body)
  | .notice o flags n =>
    withCheck [originatorByte o, 0x00, noticeCode, flags.setWidth 8, byteOf n]

/-- A drop frame: address, kind code (Table 11-13), body length, body, check (section 11.5). -/
def dropFrameBytes (addr : Nat) (kind : Byte) (body : List Byte) : List Byte :=
  withCheck ([byteOf addr, kind, byteOf body.length] ++ body)

/-- The bytes of a unicast drop frame to a node. -/
def UniFrame.bytes (n : NodeIdx) : UniFrame → List Byte
  | .write its => dropFrameBytes n.addr 0x01 (itemsBody its)
  | .read pts => dropFrameBytes n.addr 0x02 (pointsBody pts)
  | .renew its => dropFrameBytes n.addr 0x03 (itemsBody its)
  | .load t its => dropFrameBytes n.addr 0x04 (t :: itemsBody its)

/-- The bytes of a broadcast drop frame, to address 63. -/
def BroadFrame.bytes : BroadFrame → List Byte
  | .take t => dropFrameBytes 63 0x05 [t]
  | .abandon t => dropFrameBytes 63 0x06 [t]

/-- The bytes of the drop frame of a transaction. -/
def Txn.bytes : Txn → List Byte
  | .uni t => t.frame.bytes t.node
  | .broad f => f.bytes

/-- Table 11-6: kind, node, point, originator, detail. -/
def ExcBody.bytes : ExcBody → List Byte
  | .lapse n c => [0x01, byteOf n.addr, 0xFF, 0xFF, if c = .overdue then 0x01 else 0x02]
  | .silent n => [0x02, byteOf n.addr, 0xFF, 0xFF, 0x00]
  | .restored n => [0x03, byteOf n.addr, 0xFF, 0xFF, 0x00]
  | .renewRefused n => [0x04, byteOf n.addr, 0xFF, 0xFF, 0x00]
  | .claimBroken n p o c =>
    [0x05, byteOf n.addr, byteOf p.val, byteOf o.val, if c = .write then 0x01 else 0x02]
  | .claimExpired n p o => [0x06, byteOf n.addr, byteOf p.val, byteOf o.val, 0x00]
  | .stageExpired o k => [0x07, 0x00, 0xFF, byteOf o.val, byteOf k]

/-- Table 11-6. -/
def ExcRecord.bytes (r : ExcRecord) : List Byte := r.body.bytes ++ wordBytes r.stamp

/-- A value that may be absent, in two bytes: 0 when absent. -/
def optWordBytes (v : Option Word) : List Byte := wordBytes (v.getD 0)

/-- Table 11-7. -/
def PointRec.bytes (r : PointRec) : List Byte :=
  [byteOf (r.width.getD 0),
   byteOf (r.held.toNat + 2 * r.active.isSome.toNat + 4 * r.pending.isSome.toNat)] ++
  optWordBytes r.active ++ optWordBytes r.pending

/-- The body of a NODE STATUS response: 103 bytes (R172, Table 11-4). -/
def nodeStatusBody (s : State) (n : NodeIdx) : List Byte :=
  let e := s.node n
  [byteOf n.addr, e.state.code, e.cls.code, byteOf e.debt, boolByte e.alternation,
   byteOf e.silence, byteOf e.probe] ++ e.points.toList.flatMap PointRec.bytes

/-- The body of a READ PARAMETERS response: 32 bytes (R171). -/
def readParametersBody (s : State) : List Byte :=
  ParamId.all.flatMap fun i => [i.code, s.params.get i]

/-- Bytes 22..28 of Table 11-5. -/
def lastRefusalBytes : Option LastRefusal → List Byte
  | none => [0x00, 0x00, 0x00, 0x00, 0x00, 0x00, 0x00]
  | some r =>
    [0x01, byteOf r.originator.val, r.tag, r.kind.code, byteOf r.node.addr, byteOf r.point.val,
     r.condition.status.code]

/-- Bytes 4..7 of Table 11-5: the queued stages' originators, head first, unused places 0xFF. -/
def commitQueueBytes (q : List Originator) : List Byte :=
  (q.map (fun (o : Originator) => byteOf o.val) ++ [0xFF, 0xFF, 0xFF, 0xFF]).take 4

/-- The body of a READ STATUS response: 32 bytes (R173, Table 11-5). -/
def readStatusBody (s : State) : List Byte :=
  [s.mode.code, byteOf s.pou.forward.length, boolByte s.pou.inHand.isSome,
   byteOf s.ce.queue.length] ++
  commitQueueBytes s.ce.queue ++
  ((List.finRange 4).flatMap fun o =>
    [(s.stage o).state.code, byteOf (s.stage o).entries.length]) ++
  [byteOf s.poolFree, boolByte s.ce.clearOwed, s.ce.nextTag, byteOf s.claims.length,
   byteOf s.exq.queue.length, byteOf s.pou.summary.bits] ++
  lastRefusalBytes s.pou.lastRefusal ++
  wordBytes s.rs.intervalCount ++
  [boolByte (!s.busFree)]

/-- The body of a READ EXCEPTIONS response: remaining count, record count, records (R145). -/
def readExceptionsBody (remaining : Nat) (rs : List ExcRecord) : List Byte :=
  [byteOf remaining, byteOf rs.length] ++ rs.flatMap ExcRecord.bytes

/-- The body of a READ NOTICES response: flags byte, mask byte (R147, Table 11-10). -/
def readNoticesBody (s : State) : List Byte := [s.exq.flags.setWidth 8, s.exq.mask.setWidth 8]

/-- The body of a READ COUNTERS response: 22 bytes in the order of the R150 table (R151). -/
def readCountersBody (s : State) : List Byte :=
  Counter.all.flatMap fun c => wordBytes (s.counters.get c)

end Sys2Proof.Machine
end

