-- ==== Sys2Proof/Machine/Modes.lean ====
section
/-! DEFINITION. What reaches every block at once: RUN entry (R155), DRAINING entry (R156), FLUSH (R161, R163) and
the mode's part of SET MODE (R154). -/

namespace Sys2Proof.Machine

/-! ## RUN entry -/

/-- R155: the mode becomes RUN, a CLEAR is owed, and the wake debits are applied. -/
def State.runEntry (s : State) : State :=
  { s.wakeAll with mode := .run, ce := { s.ce with clearOwed := true } }

/-! ## Emptying the queues -/

/-- R77: every entry of the forward queue, head first, is removed and answered with this status, its response
carrying its conditions let through (R100). -/
def State.answerForward (st : Status) (s : State) : State :=
  let s' := s.pou.forward.foldl (fun s e => s.respond (e.reply st)) s
  { s' with pou := { s'.pou with forward := [] } }

/-- R139: one queued stage returns to OPEN with its life reloaded; its COMMIT is answered OFFLINE. -/
def State.reopenStage (s : State) (o : Originator) : State :=
  let s' := s.answerCommit o .offline []
  s'.setStage o { s'.stage o with
    state := .opened, life := some s'.params.stageTimeout, request := none }

/-- R139: the commit queue is emptied, head first. -/
def State.reopenQueued (s : State) : State :=
  let s' := s.ce.queue.foldl State.reopenStage s
  { s' with ce := { s'.ce with queue := [] } }

/-- R156 steps 1 to 3: DRAINING entry. -/
def State.enterDraining (s : State) : State :=
  (State.answerForward .offline { s with mode := .draining }).reopenQueued

/-! ## FLUSH -/

/-- R140: a stage whose COMMIT waits is closed; the COMMIT is answered ABORTED. -/
def State.abortStage (s : State) (o : Originator) : State :=
  (s.answerCommit o .aborted []).closeStage o

/-- R161 step 2: the commit in flight is ended. -/
def State.abortCommit (s : State) : State :=
  match s.ce.commit with
  | some c =>
    let s' := (s.dropPending (s.stage c.originator).entries).abortStage c.originator
    { s' with ce := { s'.ce with commit := none } }
  | none => s

/-- R161 step 3: every queued stage is closed, head first. -/
def State.abortQueued (s : State) : State :=
  let s' := s.ce.queue.foldl State.abortStage s
  { s' with ce := { s'.ce with queue := [] } }

/-- R161 step 4: every OPEN stage is closed. -/
def State.closeOpen (s : State) : State :=
  { s with stages := s.stages.map fun g => if g.state = .opened then {} else g }

/-- R161 steps 1 to 5. -/
def State.flushWork (s : State) : State :=
  { (((s.answerForward .aborted).abortCommit).abortQueued).closeOpen with claims := [] }

/-- R163: what a FLUSH does to the mode. -/
def State.flushMode (s : State) : State :=
  match s.mode with
  | .run => s.enterDraining.endDrain
  | .draining => s.endDrain
  | .halted => s

end Sys2Proof.Machine
end

