-- ==== Sys2Proof/Machine/ManagementRequests.lean ====
section
/-! DEFINITION. The management requests of chapters 8, 9 and 10: parameters, SET MODE, FLUSH, FULL RESET, READ
STATUS, READ EXCEPTIONS, READ NOTICES, SET NOTICE MASK and READ COUNTERS. -/

namespace Sys2Proof.Machine

/-! ## Parameters -/

/-- R169: check 8 of a SET PARAMETERS: the status that refuses it and the identifier it carries. -/
def paramRefusal (s : State) (items : List (ParamId × Byte)) : Option (Status × ParamId) :=
  match items.find? fun i => !i.1.inRange i.2 with
  | some i => some (.badParam, i.1)
  | none =>
    let p := s.params.setAll items
    if p.panicWatermark ≤ p.highWatermark then some (.badParam, .panicWatermark)
    else if s.mode = .halted then none
    else (items.find? fun i => i.1.haltedOnly).map fun i => (.mode, i.1)

/-- R170, R38: the parameters are written; a changed arbitration mode returns both lists to their reset
orders. -/
def State.setParams (items : List (ParamId × Byte)) (s : State) : State :=
  let p := s.params.setAll items
  let d := s.dbc
  let d' : DropBus :=
    if p.arbMode = s.params.arbMode then d
    else { d with rotation := [.fwd, .cmt, .rnw], lead := [.fwd, .rnw] }
  { s with params := p, dbc := d' }

/-- R35, R170: the change of parameters is a decision event: the bus is FREE, and the arbitration mode or the
commit pace changed, or the idle window now has elapsed where it had not. -/
def paramDecision (before after : State) : Bool :=
  before.busFree &&
    (before.params.arbMode != after.params.arbMode ||
      before.params.commitPace != after.params.commitPace ||
      (!before.idleElapsed && after.idleElapsed))

/-- R169, R170: a SET PARAMETERS. A change of a watermark can change RNW's level only in HALTED, where the
decision it brings grants nothing. -/
def setParametersRequest (rq : Request) (s : State) : State :=
  managementRequest .setParameters readParamsBody rq
    (fun items s =>
      match paramRefusal s items with
      | some (st, i) => answer s (replyTo rq .setParameters st {} [i.code]) s
      | none =>
        let s1 := s.setParams items
        let s2 := answer s (replyTo rq .setParameters .ok) s1
        if paramDecision s s1 then s2.arbitrate else s2) s

/-- R171: a READ PARAMETERS. -/
def readParametersRequest (rq : Request) (s : State) : State :=
  managementRequest .readParameters readEmptyBody rq
    (fun _ s => answer s (replyTo rq .readParameters .ok {} (readParametersBody s)) s) s

/-! ## SET MODE, FLUSH, FULL RESET -/

/-- The response to a SET MODE: its body is the mode after the request (R154). -/
def modeReply (rq : Request) (st : Status) (after : State) : Response :=
  replyTo rq .setMode st {} [after.mode.code]

/-- R154: a SET MODE decided by the requested mode and the present one. RUN entry is a decision event (R35). -/
def decideMode (rq : Request) (m : ModeRequest) (s : State) : State :=
  match m, s.mode with
  | .run, .halted =>
    let s' := s.runEntry
    State.arbitrate (answer s (modeReply rq .ok s') s')
  | .drain, .run =>
    let s' := s.enterDraining.endDrain
    finish s (s'.respond (modeReply rq .ok s'))
  | .run, .draining => answer s (modeReply rq .mode s) s
  | .run, .run | .drain, .draining | .drain, .halted => answer s (modeReply rq .ok s) s

/-- R154: a SET MODE. -/
def setModeRequest (rq : Request) (s : State) : State :=
  managementRequest .setMode readModeBody rq (fun m s => decideMode rq m s) s

/-- R161: a FLUSH. -/
def flushRequest (rq : Request) (s : State) : State :=
  managementRequest .flush readEmptyBody rq
    (fun _ s => finish s (s.flushWork.flushMode.respond (replyTo rq .flush .ok))) s

/-- R84: a FULL RESET: the TP becomes CLOSING with the OK in its queue, or, when the queue is full, the reset
is taken at once. -/
def fullResetRequest (rq : Request) (s : State) : State :=
  managementRequest .fullReset readEmptyBody rq
    (fun _ s =>
      if s.tp.queue.length < 32 then
        let s' := s.respond (replyTo rq .fullReset .ok)
        { s' with tp := { s'.tp with closing := true } }
      else s.fullReset) s

/-! ## Reading requests -/

/-- R173, R174: a READ STATUS. -/
def readStatusRequest (rq : Request) (s : State) : State :=
  managementRequest .readStatus readOptionBody rq
    (fun clear s =>
      answer s (replyTo rq .readStatus .ok {} (readStatusBody s))
        (if clear then { s with pou := { s.pou with summary := {} } } else s)) s

/-- R145: a READ EXCEPTIONS. -/
def readExceptionsRequest (rq : Request) (s : State) : State :=
  managementRequest .readExceptions readNumberBody rq
    (fun k s =>
      let rest := s.exq.queue.drop k
      answer s
        (replyTo rq .readExceptions .ok {} (readExceptionsBody rest.length (s.exq.queue.take k)))
        { s with exq := { s.exq with queue := rest } }) s

/-- R147: a READ NOTICES. -/
def readNoticesRequest (rq : Request) (s : State) : State :=
  managementRequest .readNotices readEmptyBody rq
    (fun _ s =>
      answer s (replyTo rq .readNotices .ok {} (readNoticesBody s))
        { s with exq := { s.exq with flags := 0 } }) s

/-- R148, R149: a SET NOTICE MASK. -/
def setNoticeMaskRequest (rq : Request) (s : State) : State :=
  managementRequest .setNoticeMask readMaskBody rq
    (fun m s =>
      answer s (replyTo rq .setNoticeMask .ok) { s with exq := { s.exq with mask := m } }) s

/-- R151: a READ COUNTERS. The counters are cleared before its response can be lost. -/
def readCountersRequest (rq : Request) (s : State) : State :=
  managementRequest .readCounters readOptionBody rq
    (fun clear s =>
      answer s (replyTo rq .readCounters .ok {} (readCountersBody s))
        (if clear then { s with counters := {} } else s)) s

/-! ## The commands -/

/-- SET_PARAMETERS. -/
def execSetParameters (rq : Request) (s : State) : Host.Outcome State Fault Refusal :=
  .next (setParametersRequest rq s)

/-- READ_PARAMETERS. -/
def execReadParameters (rq : Request) (s : State) : Host.Outcome State Fault Refusal :=
  .next (readParametersRequest rq s)

/-- SET_MODE. -/
def execSetMode (rq : Request) (s : State) : Host.Outcome State Fault Refusal :=
  .next (setModeRequest rq s)

/-- FLUSH. -/
def execFlush (rq : Request) (s : State) : Host.Outcome State Fault Refusal :=
  .next (flushRequest rq s)

/-- FULL_RESET. -/
def execFullReset (rq : Request) (s : State) : Host.Outcome State Fault Refusal :=
  .next (fullResetRequest rq s)

/-- READ_STATUS. -/
def execReadStatus (rq : Request) (s : State) : Host.Outcome State Fault Refusal :=
  .next (readStatusRequest rq s)

/-- READ_EXCEPTIONS. -/
def execReadExceptions (rq : Request) (s : State) : Host.Outcome State Fault Refusal :=
  .next (readExceptionsRequest rq s)

/-- READ_NOTICES. -/
def execReadNotices (rq : Request) (s : State) : Host.Outcome State Fault Refusal :=
  .next (readNoticesRequest rq s)

/-- SET_NOTICE_MASK. -/
def execSetNoticeMask (rq : Request) (s : State) : Host.Outcome State Fault Refusal :=
  .next (setNoticeMaskRequest rq s)

/-- READ_COUNTERS. -/
def execReadCounters (rq : Request) (s : State) : Host.Outcome State Fault Refusal :=
  .next (readCountersRequest rq s)

end Sys2Proof.Machine
end

