-- ==== Sys2Proof/Machine/NodeRequests.lean ====
section
/-! DEFINITION. CONFIGURE NODE, REMOVE NODE, PARK NODE, UNPARK NODE (chapter 1) and NODE STATUS (R172). -/

namespace Sys2Proof.Machine

/-- The response to one of the four node management requests: its body is the node's state after the request
(R167). -/
def nodeReply (rq : Request) (k : ReqKind) (st : Status) (n : NodeIdx) (after : State) : Response :=
  replyTo rq k st {} [(after.node n).state.code]

/-- A node management request that is refused or changes nothing. -/
def answerNode (rq : Request) (k : ReqKind) (st : Status) (n : NodeIdx) (s : State) : State :=
  answer s (nodeReply rq k st n s) s

/-! ## CONFIGURE NODE and REMOVE NODE -/

/-- R11: the entry of a node configured with these declarations. -/
def configuredEntry (ds : List Decl) : NodeEntry :=
  ds.foldl (fun e d => e.setPoint d.point { width := some d.width, held := d.held })
    { state := .parked }

/-- R10, R11: a CONFIGURE NODE. -/
def configureNodeRequest (rq : Request) (s : State) : State :=
  managementRequest .configureNode readConfigureBody rq
    (fun d s =>
      if (s.node d.1).state = .absent then
        let s' := s.setNode d.1 (configuredEntry d.2)
        answer s (nodeReply rq .configureNode .ok d.1 s') s'
      else answerNode rq .configureNode .nodeState d.1 s) s

/-- R12: the drop transaction in flight is a unicast one addressed to the node. -/
def State.busUses (s : State) (n : NodeIdx) : Bool :=
  match s.dbc.txn with
  | some (.uni t) => t.node == n
  | some (.broad _) | none => false

/-- R12: the commit in flight includes the node. -/
def State.commitUses (s : State) (n : NodeIdx) : Bool :=
  match s.ce.commit with
  | some c => c.order.contains n
  | none => false

/-- R12: the node is in use. -/
def State.inUse (s : State) (n : NodeIdx) : Bool :=
  s.claims.any (fun c => c.node == n) ||
    (List.finRange 4).any (fun o => (s.stage o).entries.any fun e => e.node == n) ||
    s.pou.forward.any (fun e => e.node == n) || s.busUses n || s.commitUses n

/-- R12, R14: a REMOVE NODE. -/
def removeNodeRequest (rq : Request) (s : State) : State :=
  managementRequest .removeNode readNodeBody rq
    (fun n s =>
      if (s.node n).state = .parked then
        if s.inUse n then answerNode rq .removeNode .inUse n s
        else
          let s' := s.setNode n {}
          answer s (nodeReply rq .removeNode .ok n s') s'
      else answerNode rq .removeNode .nodeState n s) s

/-! ## PARK NODE and UNPARK NODE -/

/-- R15: an entry in service, parked. -/
def NodeEntry.park (e : NodeEntry) : NodeEntry :=
  { e with state := .parked, debt := 0, silence := 0, alternation := false, probe := 0 }

/-- R15: a PARK NODE. -/
def parkNodeRequest (rq : Request) (s : State) : State :=
  managementRequest .parkNode readNodeBody rq
    (fun n s =>
      match (s.node n).state with
      | .absent => answerNode rq .parkNode .nodeState n s
      | .parked => answerNode rq .parkNode .ok n s
      | .live | .lapsed | .silent =>
        let s' := s.setNode n (s.node n).park
        finish s (s'.respond (nodeReply rq .parkNode .ok n s'))) s

/-- R17: a parked entry, unparked. -/
def NodeEntry.unpark (wake : Nat) (e : NodeEntry) : NodeEntry :=
  { e with state := .live, debt := wake, silence := 0, alternation := false, probe := 0 }

/-- R17: an UNPARK NODE. -/
def unparkNodeRequest (rq : Request) (s : State) : State :=
  managementRequest .unparkNode readNodeBody rq
    (fun n s =>
      match (s.node n).state with
      | .parked =>
        let s' := s.setNode n ((s.node n).unpark s.params.wakeDebits)
        finish s (s'.respond (nodeReply rq .unparkNode .ok n s'))
      | .absent | .live | .lapsed | .silent => answerNode rq .unparkNode .nodeState n s) s

/-! ## NODE STATUS -/

/-- R172: a NODE STATUS. -/
def nodeStatusRequest (rq : Request) (s : State) : State :=
  managementRequest .nodeStatus readNodeBody rq
    (fun n s => answer s (replyTo rq .nodeStatus .ok {} (nodeStatusBody s n)) s) s

/-! ## The commands -/

/-- CONFIGURE_NODE. -/
def execConfigureNode (rq : Request) (s : State) : Host.Outcome State Fault Refusal :=
  .next (configureNodeRequest rq s)

/-- REMOVE_NODE. -/
def execRemoveNode (rq : Request) (s : State) : Host.Outcome State Fault Refusal :=
  .next (removeNodeRequest rq s)

/-- PARK_NODE. -/
def execParkNode (rq : Request) (s : State) : Host.Outcome State Fault Refusal :=
  .next (parkNodeRequest rq s)

/-- UNPARK_NODE. -/
def execUnparkNode (rq : Request) (s : State) : Host.Outcome State Fault Refusal :=
  .next (unparkNodeRequest rq s)

/-- NODE_STATUS. -/
def execNodeStatus (rq : Request) (s : State) : Host.Outcome State Fault Refusal :=
  .next (nodeStatusRequest rq s)

end Sys2Proof.Machine
end

