-- ==== Sys2Proof/Machine/PointRequests.lean ====
section
/-! DEFINITION. WRITE, MODIFY, READ and TEST (chapters 4 and 5): their arrival. What a forwarded request does at
its grant and outcome stands in ForwardGrant.lean and DropBus.lean. -/

namespace Sys2Proof.Machine

/-- R86, R73, R75: the arrival of a WRITE. -/
def writeRequest (rq : Request) (s : State) : State :=
  nodeRequest .write readItemsBody rq
    (fun n items s =>
      afterArrivalCheck .write rq n (items.map Item.point) none
        (fun s =>
          finish s
            (overrangeCheck .write rq n items
              (fun its passed s => s.joinForward .write rq n (.write its) passed) s)) s) s

/-- R88: the arrival of a MODIFY. -/
def modifyRequest (rq : Request) (s : State) : State :=
  nodeRequest .modify readModifyBody rq
    (fun n m s =>
      afterArrivalCheck .modify rq n [m.1] (some (m.1, m.2.2))
        (fun s => finish s (s.joinForward .modify rq n (.modify m.1 m.2.1 m.2.2) {})) s) s

/-- R92: the arrival of a READ. -/
def readRequest (rq : Request) (s : State) : State :=
  nodeRequest .read readPointsBody rq
    (fun n pts s =>
      afterArrivalCheck .read rq n pts none
        (fun s => finish s (s.joinForward .read rq n (.read pts) {})) s) s

/-- R91: the flags of a TEST response. -/
def testFlags (active : Option Word) (b : Fin 16) : RespFlags :=
  match active with
  | none => { unset := true }
  | some v => { zero := !v.getLsbD b.val }

/-- R91, Table 11-4: the body of a TEST response. -/
def testRespBody (active : Option Word) (b : Fin 16) : List Byte :=
  match active with
  | none => []
  | some v => [if v.getLsbD b.val then 0x01 else 0x00]

/-- R91: a TEST, answered from the shadow. -/
def testRequest (rq : Request) (s : State) : State :=
  nodeRequest .test readTestBody rq
    (fun n t s =>
      afterArrivalCheck .test rq n [t.1] (some t)
        (fun s =>
          answer s
            (replyTo rq .test .ok (testFlags (s.point n t.1).active t.2)
              (testRespBody (s.point n t.1).active t.2)) s) s) s

/-! ## The commands -/

/-- WRITE. -/
def execWrite (rq : Request) (s : State) : Host.Outcome State Fault Refusal :=
  .next (writeRequest rq s)

/-- MODIFY. -/
def execModify (rq : Request) (s : State) : Host.Outcome State Fault Refusal :=
  .next (modifyRequest rq s)

/-- READ. -/
def execRead (rq : Request) (s : State) : Host.Outcome State Fault Refusal :=
  .next (readRequest rq s)

/-- TEST. -/
def execTest (rq : Request) (s : State) : Host.Outcome State Fault Refusal :=
  .next (testRequest rq s)

end Sys2Proof.Machine
end

