-- ==== Sys2Proof/Machine/Resets.lean ====
section
/-! DEFINITION. The full reset and its sources (R164, R165). -/

namespace Sys2Proof.Machine

/-- R164: the assertion of RESET takes the full reset at once, and the pin stays low. -/
def State.assertReset (s : State) : State := { s.fullReset with resetLow := true }

/-- R164, R84: the release of RESET; the reset values hold from it. -/
def State.releaseReset (s : State) : State :=
  if s.resetLow then { s.fullReset with resetLow := false } else s

/-- R84, R165: the full reset that a FULL RESET request left to be taken: the TP is CLOSING, and no frame but the
OK is left to transmit. -/
def State.takeFullReset (s : State) : State :=
  if s.tp.closing && decide (s.tp.queue.length ≤ 1) then s.fullReset else s

/-! ## The commands -/

/-- POWER_ON. -/
def execPowerOn (s : State) : Host.Outcome State Fault Refusal := .next s.fullReset

/-- RESET_ASSERTED. -/
def execResetAsserted (s : State) : Host.Outcome State Fault Refusal := .next s.assertReset

/-- RESET_RELEASED. -/
def execResetReleased (s : State) : Host.Outcome State Fault Refusal := .next s.releaseReset

/-- FULL_RESET_TAKEN. While RESET is low no frame is sent (R84). -/
def execFullResetTaken (s : State) : Host.Outcome State Fault Refusal :=
  .next (if s.resetLow then s else s.takeFullReset)

end Sys2Proof.Machine
end

