-- ==== Sys2Proof/Machine/StageRequests.lean ====
section
/-! DEFINITION. STAGE, COMMIT and DISCARD (chapter 7). -/

namespace Sys2Proof.Machine

/-! ## STAGE -/

/-- A stage entry is for this node and point. -/
def StageEntry.on (e : StageEntry) (n : NodeIdx) (p : PointIdx) : Bool := e.node == n && e.point == p

/-- The stage has an entry for the item's point of the node. -/
def Stage.names (g : Stage) (n : NodeIdx) (it : Item) : Bool := g.entries.any fun e => e.on n it.point

/-- R120 step 2: the items that need a new entry. -/
def Stage.newItems (g : Stage) (n : NodeIdx) (items : List Item) : List Item :=
  items.filter fun it => !g.names n it

/-- R121: an existing entry after the request: the value of the item that names it, if one does. -/
def replaceEntry (n : NodeIdx) (items : List Item) (e : StageEntry) : StageEntry :=
  match items.find? fun it => e.on n it.point with
  | some it => { e with value := it.value }
  | none => e

/-- R121: the entries after the request: replacements in their places, new entries at the tail. -/
def Stage.merge (g : Stage) (n : NodeIdx) (items : List Item) : List StageEntry :=
  g.entries.map (replaceEntry n items) ++
    (g.newItems n items).map fun it => { node := n, point := it.point, value := it.value }

/-- R120, R121: check 8 of a STAGE and its taking. -/
def decideStage (rq : Request) (n : NodeIdx) (items : List Item) (passed : CondSet) (s : State) :
    State :=
  let o := rq.originator
  let g := s.stage o
  let new := (g.newItems n items).length
  match g.state with
  | .queued | .committing => s.respond (replyTo rq .stage .stageBusy)
  | .closed | .opened =>
    if 64 < g.entries.length + new then
      s.respond (replyTo rq .stage .stageFull {} [byteOf g.entries.length])
    else if s.poolFree < new then
      ((s.count .stageExhausted).raise .poolShort).respond
        (replyTo rq .stage .exhausted {} [byteOf s.poolFree])
    else
      let es := g.merge n items
      ((s.setStage o { g with
          state := .opened, entries := es, life := some s.params.stageTimeout }).passOverrange
        passed).respond
          (replyTo rq .stage .ok { passed := passed }
            [byteOf es.length, byteOf (items.length - new)])

/-- R120: a STAGE. -/
def stageRequest (rq : Request) (s : State) : State :=
  nodeRequest .stage readItemsBody rq
    (fun n items s =>
      afterArrivalCheck .stage rq n (items.map Item.point) none
        (fun s =>
          closeEvent s (overrangeCheck .stage rq n items (fun its passed s =>
            decideStage rq n its passed s) s)) s) s

/-! ## COMMIT and DISCARD -/

/-- R125: an OPEN stage is queued with the tag of its COMMIT. -/
def State.queueStage (o : Originator) (tag : Byte) (s : State) : State :=
  { s.setStage o { s.stage o with state := .queued, request := some tag } with
    ce := { s.ce with queue := s.ce.queue ++ [o] } }

/-- R125, R129: a COMMIT. -/
def commitRequest (rq : Request) (s : State) : State :=
  segmentRequest .commit readEmptyBody rq
    (fun _ s =>
      if s.mode = .run then
        match (s.stage rq.originator).state with
        | .opened => finish s (s.queueStage rq.originator rq.tag).takeCommit
        | .closed => answer s (replyTo rq .commit .empty) s
        | .queued | .committing => answer s (replyTo rq .commit .stageBusy) s
      else answer s (replyTo rq .commit .offline) s) s

/-- R124: a QUEUED stage leaves the commit queue, its COMMIT answered ABORTED. -/
def State.unqueueStage (o : Originator) (s : State) : State :=
  let s' := s.answerCommit o .aborted []
  { s' with ce := { s'.ce with queue := s'.ce.queue.filter fun x => x != o } }

/-- R124: a DISCARD. -/
def discardRequest (rq : Request) (s : State) : State :=
  segmentRequest .discard readEmptyBody rq
    (fun _ s =>
      let o := rq.originator
      let freed := replyTo rq .discard .ok {} [byteOf (s.stage o).entries.length]
      match (s.stage o).state with
      | .closed => answer s (replyTo rq .discard .ok {} [0x00]) s
      | .opened => answer s freed (s.closeStage o)
      | .queued => answer s freed ((s.unqueueStage o).closeStage o)
      | .committing => answer s (replyTo rq .discard .stageBusy) s) s

/-! ## The commands -/

/-- STAGE. -/
def execStage (rq : Request) (s : State) : Host.Outcome State Fault Refusal :=
  .next (stageRequest rq s)

/-- COMMIT. -/
def execCommit (rq : Request) (s : State) : Host.Outcome State Fault Refusal :=
  .next (commitRequest rq s)

/-- DISCARD. -/
def execDiscard (rq : Request) (s : State) : Host.Outcome State Fault Refusal :=
  .next (discardRequest rq s)

end Sys2Proof.Machine
end

