-- ==== Sys2Proof/Machine/Trunk.lean ====
section
/-! DEFINITION. The trunk as bytes and frames: a received frame from its first byte on (R67, R68, R84, R177), and
the end of transmission of a frame of the transmit queue (R82 to R84). -/

namespace Sys2Proof.Machine

/-! ## Received frames -/

/-- R69: a frame with a good check handed to the block of its kind. -/
def takeRequest (k : ReqKind) (rq : Request) (s : State) : State :=
  match k with
  | .write => writeRequest rq s
  | .modify => modifyRequest rq s
  | .read => readRequest rq s
  | .release => releaseRequest rq s
  | .test => testRequest rq s
  | .claim => claimRequest rq s
  | .unclaim => unclaimRequest rq s
  | .stage => stageRequest rq s
  | .commit => commitRequest rq s
  | .discard => discardRequest rq s
  | .configureNode => configureNodeRequest rq s
  | .removeNode => removeNodeRequest rq s
  | .parkNode => parkNodeRequest rq s
  | .unparkNode => unparkNodeRequest rq s
  | .nodeStatus => nodeStatusRequest rq s
  | .setParameters => setParametersRequest rq s
  | .readParameters => readParametersRequest rq s
  | .setMode => setModeRequest rq s
  | .flush => flushRequest rq s
  | .fullReset => fullResetRequest rq s
  | .readStatus => readStatusRequest rq s
  | .readExceptions => readExceptionsRequest rq s
  | .readNotices => readNoticesRequest rq s
  | .setNoticeMask => setNoticeMaskRequest rq s
  | .readCounters => readCountersRequest rq s

/-- R68, R177: a frame with a good check and this kind byte; an unknown kind code is a fault of structure. -/
def takeFrame (kind : Byte) (rq : Request) (s : State) : State :=
  match ReqKind.ofCode? kind with
  | some k => takeRequest k rq s
  | none => if s.takesFrames then malformed kind rq s else s

/-- R67: a frame that fails its check is counted and discarded. -/
def crcFailure (s : State) : State := closeEvent s (s.count .trunkCrcErrors)

/-- A trunk frame received whole, or cut short: discarded while the TP is CLOSING (R84) or RESET is low (R164),
counted when its check fails (R67), and else taken. -/
def receiveFrame (f : List Byte) (cutShort : Bool) (s : State) : State :=
  if s.takesFrames then
    if cutShort || !checkGood f then crcFailure s
    else
      match readTrunkFrame f with
      | some (kind, rq) => takeFrame kind rq s
      | none => crcFailure s
  else s

/-! ## Sent frames -/

/-- R82, R83: the head of the transmit queue has left; PAUSE is released when this makes the occupancy 16. -/
def State.frameLeft (rest : List TrunkFrame) (s : State) : State :=
  { s with tp := { s.tp with queue := rest, pause := s.tp.pause && rest.length != 16 } }

/-- R82, R84: the end of transmission of the head of the transmit queue. While CLOSING the last frame is the OK
of the FULL RESET, and its end takes the full reset. -/
def State.frameTransmitted (s : State) : State :=
  match s.tp.queue with
  | [] => s
  | _ :: rest => if s.tp.closing && rest.isEmpty then s.fullReset else s.frameLeft rest

/-! ## The commands -/

/-- TRUNK_CRC_FAILURE. -/
def execTrunkCrcFailure (f : List Byte) (cutShort : Bool) (s : State) :
    Host.Outcome State Fault Refusal :=
  .next (receiveFrame f cutShort s)

/-- UNKNOWN_KIND_FRAME. -/
def execUnknownKindFrame (kind : Byte) (rq : Request) (s : State) :
    Host.Outcome State Fault Refusal :=
  .next (takeFrame kind rq s)

/-- CLOSING_FRAME_DISCARDED. -/
def execClosingFrameDiscarded (f : List Byte) (s : State) : Host.Outcome State Fault Refusal :=
  .next (receiveFrame f false s)

/-- TRUNK_FRAME_TRANSMITTED. While RESET is low no frame is sent (R84). -/
def execTrunkFrameTransmitted (s : State) : Host.Outcome State Fault Refusal :=
  .next (if s.resetLow then s else s.frameTransmitted)

end Sys2Proof.Machine
end

