-- ==== Sys2Proof/Machine/Dispatch.lean ====
section
/-! DEFINITION. One arm per command: the call of its meaning. -/

namespace Sys2Proof.Machine

/-- The effect of a command on everything but the queue of commands. -/
def exec (i : Instr) (s : State) : Host.Outcome State Fault Refusal :=
  match i with
  | .powerOn => Sys2Proof.Machine.execPowerOn s
  | .resetAsserted => Sys2Proof.Machine.execResetAsserted s
  | .resetReleased => Sys2Proof.Machine.execResetReleased s
  | .fullResetTaken => Sys2Proof.Machine.execFullResetTaken s
  | .trunkCrcFailure f c => Sys2Proof.Machine.execTrunkCrcFailure f c s
  | .unknownKindFrame k rq => Sys2Proof.Machine.execUnknownKindFrame k rq s
  | .closingFrameDiscarded f => Sys2Proof.Machine.execClosingFrameDiscarded f s
  | .write rq => Sys2Proof.Machine.execWrite rq s
  | .modify rq => Sys2Proof.Machine.execModify rq s
  | .read rq => Sys2Proof.Machine.execRead rq s
  | .release rq => Sys2Proof.Machine.execRelease rq s
  | .test rq => Sys2Proof.Machine.execTest rq s
  | .claim rq => Sys2Proof.Machine.execClaim rq s
  | .unclaim rq => Sys2Proof.Machine.execUnclaim rq s
  | .stage rq => Sys2Proof.Machine.execStage rq s
  | .commit rq => Sys2Proof.Machine.execCommit rq s
  | .discard rq => Sys2Proof.Machine.execDiscard rq s
  | .configureNode rq => Sys2Proof.Machine.execConfigureNode rq s
  | .removeNode rq => Sys2Proof.Machine.execRemoveNode rq s
  | .parkNode rq => Sys2Proof.Machine.execParkNode rq s
  | .unparkNode rq => Sys2Proof.Machine.execUnparkNode rq s
  | .nodeStatus rq => Sys2Proof.Machine.execNodeStatus rq s
  | .setParameters rq => Sys2Proof.Machine.execSetParameters rq s
  | .readParameters rq => Sys2Proof.Machine.execReadParameters rq s
  | .setMode rq => Sys2Proof.Machine.execSetMode rq s
  | .flush rq => Sys2Proof.Machine.execFlush rq s
  | .fullReset rq => Sys2Proof.Machine.execFullReset rq s
  | .readStatus rq => Sys2Proof.Machine.execReadStatus rq s
  | .readExceptions rq => Sys2Proof.Machine.execReadExceptions rq s
  | .readNotices rq => Sys2Proof.Machine.execReadNotices rq s
  | .setNoticeMask rq => Sys2Proof.Machine.execSetNoticeMask rq s
  | .readCounters rq => Sys2Proof.Machine.execReadCounters rq s
  | .trunkFrameTransmitted => Sys2Proof.Machine.execTrunkFrameTransmitted s
  | .arbiterDecision => Sys2Proof.Machine.execArbiterDecision s
  | .idleWindowElapsed => Sys2Proof.Machine.execIdleWindowElapsed s
  | .unicastTransmissionEnd => Sys2Proof.Machine.execUnicastTransmissionEnd s
  | .takeTransmissionEnd => Sys2Proof.Machine.execTakeTransmissionEnd s
  | .abandonTransmissionEnd => Sys2Proof.Machine.execAbandonTransmissionEnd s
  | .clearTransmissionEnd => Sys2Proof.Machine.execClearTransmissionEnd s
  | .dropReplyTaken f => Sys2Proof.Machine.execDropReplyTaken f s
  | .freeFrameReceived f => Sys2Proof.Machine.execFreeFrameReceived f s
  | .replyWindowExpiry => Sys2Proof.Machine.execReplyWindowExpiry s
  | .phaseEvent => Sys2Proof.Machine.execPhaseEvent s
  | .intervalExpiry => Sys2Proof.Machine.execIntervalExpiry s
  | .commitTaken => Sys2Proof.Machine.execCommitTaken s
  | .drainEnd => Sys2Proof.Machine.execDrainEnd s

end Sys2Proof.Machine
end

