-- ==== Sys2Proof/Safety.lean ====
section
/-! DEFINITION. What every state the part can reach satisfies: one predicate per block, each said of one state, and
what it means that a step keeps one. -/

namespace Sys2Proof

/-! ## Rows and kinds (R66, R68, R177) -/

/-- The row of a request kind, with this frame. -/
def ReqKind.command (rq : Request) : ReqKind → Instr
  | .write => .write rq
  | .modify => .modify rq
  | .read => .read rq
  | .release => .release rq
  | .test => .test rq
  | .claim => .claim rq
  | .unclaim => .unclaim rq
  | .stage => .stage rq
  | .commit => .commit rq
  | .discard => .discard rq
  | .configureNode => .configureNode rq
  | .removeNode => .removeNode rq
  | .parkNode => .parkNode rq
  | .unparkNode => .unparkNode rq
  | .nodeStatus => .nodeStatus rq
  | .setParameters => .setParameters rq
  | .readParameters => .readParameters rq
  | .setMode => .setMode rq
  | .flush => .flush rq
  | .fullReset => .fullReset rq
  | .readStatus => .readStatus rq
  | .readExceptions => .readExceptions rq
  | .readNotices => .readNotices rq
  | .setNoticeMask => .setNoticeMask rq
  | .readCounters => .readCounters rq

/-- The request kind of the frame a command carries, if it carries one of a known kind. -/
def Instr.frameKind? : Instr → Option ReqKind
  | .write _ => some .write
  | .modify _ => some .modify
  | .read _ => some .read
  | .release _ => some .release
  | .test _ => some .test
  | .claim _ => some .claim
  | .unclaim _ => some .unclaim
  | .stage _ => some .stage
  | .commit _ => some .commit
  | .discard _ => some .discard
  | .configureNode _ => some .configureNode
  | .removeNode _ => some .removeNode
  | .parkNode _ => some .parkNode
  | .unparkNode _ => some .unparkNode
  | .nodeStatus _ => some .nodeStatus
  | .setParameters _ => some .setParameters
  | .readParameters _ => some .readParameters
  | .setMode _ => some .setMode
  | .flush _ => some .flush
  | .fullReset _ => some .fullReset
  | .readStatus _ => some .readStatus
  | .readExceptions _ => some .readExceptions
  | .readNotices _ => some .readNotices
  | .setNoticeMask _ => some .setNoticeMask
  | .readCounters _ => some .readCounters
  | .unknownKindFrame b _ => ReqKind.ofCode? b
  | .trunkCrcFailure f _ | .closingFrameDiscarded f =>
    (readTrunkFrame f).bind fun h => ReqKind.ofCode? h.1
  | .powerOn | .resetAsserted | .resetReleased | .fullResetTaken
  | .trunkFrameTransmitted | .arbiterDecision | .idleWindowElapsed | .unicastTransmissionEnd
  | .takeTransmissionEnd | .abandonTransmissionEnd | .clearTransmissionEnd
  | .dropReplyTaken _ | .freeFrameReceived _ | .replyWindowExpiry | .phaseEvent
  | .intervalExpiry | .commitTaken | .drainEnd => none

end Sys2Proof

namespace Sys2Proof.Machine

/-- A step that answers a next state keeps the property. -/
def Kept (p : State → Prop) : Prop := ∀ s t : State, p s → step s = .next t → p t

/-! ## Frames that are well formed (R68, R69, R177) -/

/-- A frame for a node, its body read by the kind's reader. -/
def ForNode {α : Type} (rd : List Byte → Option α) (rq : Request) (n : NodeIdx) (a : α) : Prop :=
  NodeIdx.ofAddr? rq.destination.toNat = some n ∧ rq.sizedBody.bind rd = some a

/-- A frame for the part itself, its body read by the kind's reader. -/
def ForPart {α : Type} (rd : List Byte → Option α) (rq : Request) (a : α) : Prop :=
  rq.destination.toNat = 0 ∧ rq.sizedBody.bind rd = some a

/-- A management request that passes the first two checks of R70: the part takes frames, the frame is well formed,
and its originator is in the manager set. -/
def Managed {α : Type} (rd : List Byte → Option α) (rq : Request) (a : α) (s : State) : Prop :=
  s.takesFrames = true ∧ ForPart rd rq a ∧ s.params.isManager rq.originator = true

/-- The node is declared at every point named, and in service, in RUN: a forwarded kind passes checks 3 to 5 of
R70. -/
def Forwardable (s : State) (n : NodeIdx) (pts : List PointIdx) : Prop :=
  s.mode = .run ∧ (s.node n).state.inService = true ∧
    ∀ p ∈ pts, (s.point n p).width.isSome = true

/-- R73: every value lies within its point's declared width. -/
def Fits (s : State) (n : NodeIdx) (items : List Item) : Prop :=
  ∀ it ∈ items, ∀ w, (s.point n it.point).width = some w → it.value.toNat < 2 ^ w

/-- The state with an entry at the tail of the forward queue (R76). -/
def queued (s : State) (e : FwdEntry) : State :=
  { s with pou := { s.pou with forward := s.pou.forward ++ [e] } }

/-! ## Trunk Port (R82, R83) -/

/-- R82, R83: at most 32 frames; PAUSE asserted from an occupancy of 24, and released at 16 and below. -/
def TransmitQueueLegal (s : State) : Prop :=
  s.tp.queue.length ≤ 32 ∧ (24 ≤ s.tp.queue.length → s.tp.pause = true) ∧
    (s.tp.pause = true → 16 < s.tp.queue.length)

/-! ## Queues and tables with a capacity -/

/-- R76: at most 16 entries, at most 8 of one originator. -/
def ForwardQueueLegal (s : State) : Prop :=
  s.pou.forward.length ≤ 16 ∧
    ∀ o : Originator, (s.pou.forward.filter fun e => e.originator == o).length ≤ 8

/-- R143: at most 32 exception records. -/
def ExceptionQueueLegal (s : State) : Prop := s.exq.queue.length ≤ 32

/-- R103: at most 8 claim records, and at most one for any node and point. -/
def ClaimTableLegal (s : State) : Prop :=
  s.claims.length ≤ 8 ∧ (s.claims.map fun c => (c.node, c.point)).Nodup

/-! ## Parameters (R168) -/

/-- R168: every parameter in its range, and the high watermark below the panic watermark. -/
def Params.Legal (p : Params) : Prop :=
  (1 ≤ p.renewalInterval ∧ p.renewalInterval ≤ 255) ∧ (1 ≤ p.highWatermark ∧ p.highWatermark ≤ 7) ∧
    (2 ≤ p.panicWatermark ∧ p.panicWatermark ≤ 8) ∧ p.highWatermark < p.panicWatermark ∧
    (1 ≤ p.wakeDebits ∧ p.wakeDebits ≤ 3) ∧ p.replyWindowCode ≤ 7 ∧ p.idleWindow ≤ 255 ∧
    (1 ≤ p.claimTimeout ∧ p.claimTimeout ≤ 255) ∧ (1 ≤ p.stageTimeout ∧ p.stageTimeout ≤ 255)

/-! ## Node health (R46, R58) -/

/-- R46, R58: debt at most 8, and 0 in ABSENT and PARKED; silence count below 3 in LIVE and LAPSED, and 3 in
SILENT. -/
def NodeEntry.HealthLegal (e : NodeEntry) : Prop :=
  e.debt ≤ 8 ∧ e.probe ≤ 8 ∧
    match e.state with
    | .absent | .parked => e.debt = 0 ∧ e.silence = 0
    | .live | .lapsed => e.silence < 3
    | .silent => e.silence = 3

/-- The parameters are legal and every node's health is. -/
def HealthLegal (s : State) : Prop := s.params.Legal ∧ ∀ n : NodeIdx, (s.node n).HealthLegal

/-! ## Modes (R77, R126, R158, R160) -/

/-- R77, R126: the forward queue and the commit queue are empty outside RUN. R160: in HALTED no commit is in
flight, no CLEAR is owed and the bus is FREE. R127: a CLEAR owed and a commit in flight never hold together. R158:
a drain that can end has ended. -/
def ModeLegal (s : State) : Prop :=
  (s.mode ≠ .run → s.pou.forward = [] ∧ s.ce.queue = []) ∧
    (s.mode = .halted → s.ce.commit = none ∧ s.ce.clearOwed = false ∧ s.dbc.txn = none) ∧
    (s.ce.clearOwed = true → s.ce.commit = none) ∧ s.drained = false

/-! ## Stage Store and Commit Engine (R119, R127) -/

/-- R119: one stage. -/
def Stage.Legal (g : Stage) : Prop :=
  g.entries.length ≤ 64 ∧ (g.entries.map fun e => (e.node, e.point)).Nodup ∧
    (g.state = .closed ↔ g.entries = []) ∧ (g.state = .closed ↔ g.life = none) ∧
    (g.request.isSome = true ↔ g.state = .queued ∨ g.state = .committing) ∧
    (g.tag.isSome = true ↔ g.state = .committing)

/-- R119, R126, R127: every stage legal, at most 192 entries held, the commit queue made of the QUEUED stages each
once, the committing stage the one in COMMITTING, and a next tag that is not 0. -/
def StageStoreLegal (s : State) : Prop :=
  (∀ o : Originator, (s.stage o).Legal) ∧ s.staged ≤ 192 ∧ s.ce.queue.Nodup ∧
    (∀ o : Originator, o ∈ s.ce.queue ↔ (s.stage o).state = .queued) ∧
    (∀ o : Originator, s.ce.commit.map Commit.originator = some o ↔
      (s.stage o).state = .committing) ∧
    s.ce.nextTag ≠ 0

/-! ## Drop bus (R38, R41, R102) -/

/-- R38: the rotation list holds FWD, CMT and RNW each once, the lead list FWD and RNW each once. -/
def ListsLegal (s : State) : Prop :=
  s.dbc.rotation.Perm [.fwd, .cmt, .rnw] ∧ s.dbc.lead.Perm [.fwd, .rnw]

/-- R79, R80: the POU holds a request in hand exactly while a WRITE or READ of its own is in flight. -/
def InHandLegal (s : State) : Prop :=
  s.pou.inHand.isSome = true ↔
    match s.dbc.txn with
    | some (.uni t) =>
      match t.frame with
      | .write _ | .read _ => True
      | .renew _ | .load _ _ => False
    | some (.broad _) | none => False

/-! ## The shadow (R3, R5) -/

/-- The value lies within the point's declared width, and the point is declared. -/
def FitsPoint (s : State) (n : NodeIdx) (p : PointIdx) (v : Word) : Prop :=
  ∃ w, (s.point n p).width = some w ∧ v.toNat < 2 ^ w

/-- A forward-queue entry's values, or its bit, lie within the declared widths. -/
def NodeOp.FitsNode (s : State) (n : NodeIdx) : NodeOp → Prop
  | .write items => ∀ it ∈ items, FitsPoint s n it.point it.value
  | .modify p _ b => ∃ w, (s.point n p).width = some w ∧ b.val < w
  | .read pts => ∀ p ∈ pts, (s.point n p).width.isSome = true
  | .release it => FitsPoint s n it.point it.value

/-- The values of a unicast frame in flight lie within the declared widths. -/
def UniFrame.FitsNode (s : State) (n : NodeIdx) : UniFrame → Prop
  | .write items | .load _ items => ∀ it ∈ items, FitsPoint s n it.point it.value
  | .read _ | .renew _ => True

/-- R3, R5: the active and pending value of every point lie within its declared width; an undeclared point is not
held; an ABSENT node declares nothing; and every value on its way to the shadow lies within the declared width of
its point: in a stage, in the forward queue, and in the transaction in flight. -/
def ShadowLegal (s : State) : Prop :=
  (∀ (n : NodeIdx) (p : PointIdx) (v : Word), (s.point n p).active = some v → FitsPoint s n p v) ∧
    (∀ (n : NodeIdx) (p : PointIdx) (v : Word), (s.point n p).pending = some v → FitsPoint s n p v) ∧
    (∀ (n : NodeIdx) (p : PointIdx), (s.point n p).held = true → (s.point n p).width.isSome = true) ∧
    (∀ n : NodeIdx, (s.node n).state = .absent → ∀ p : PointIdx, (s.point n p).width = none) ∧
    (∀ o : Originator, ∀ e ∈ (s.stage o).entries, FitsPoint s e.node e.point e.value) ∧
    (∀ e ∈ s.pou.forward, e.op.FitsNode s e.node) ∧
    ∀ t : UniTxn, s.dbc.txn = some (.uni t) → t.frame.FitsNode s t.node

/-! ## The reset state held while RESET is low (R84, R164) -/

/-- R84, R164: while RESET is held low every block holds its reset values. -/
def ResetHeld (s : State) : Prop := s.resetLow = true → s = s.fullReset

end Sys2Proof.Machine
end

