-- ==== Sys2Proof/Certificates/Slice0/Obligations.lean ====
section
/-! DEFINITION. The statements about the part. Where a result is written with a name of the model, another
statement says what that is: `finish` EndOfAnEvent; `closeEvent` and `answer` NoticeAtTheEndOfAnEvent; `respond`
TransmitQueueTraffic; `offer` and `count` RecordsAndCounters; `replyTo`, the readers of bodies and `takesFrames`
RefusedBeforeTheEffect; `claimOn`, `claimOf` and `mapClaim` ClaimAndUnclaim; `setActive`
ValueSettingEventBreaksTheClaim; `setStage` and `poolFree` StageIsDecided; `setNode` and `inService`
NodesConfiguredAndRemoved; `takeCommit` CommitIsTaken; `startUni`, `startBroad` and `freeBus` WriteGrant; the codes
FramesReadAsLaidOut. -/

open Sys2Proof Sys2Proof.Machine

/-! ## The queue of commands and time -/

/-- A step with a command at the front of the queue is that command on the rest. -/
def Obligations.StepTakesTheFrontCommand : Prop :=
  ∀ (c : Instr) (rest : List Instr) (s : State),
    step { s with pending := c :: rest } = exec c { s with pending := rest }

/-- The model's choice (assumption log 1): on an empty queue 10 µs pass. With RESET low nothing changes; with the bus
FREE, no quarter ending and the idle window not just reached, the quarter and the idle timer move by one, the
idle timer held at 255 (assumption log 5).

The reply window runs while AWAITING and ends the transaction when it runs out (R27, R30); log 1.

While the part is TRANSMITTING only the quarter runs (R27, R33).

When the quarter runs out its phase event takes place (R42); when the idle timer reaches the idle window the
arbiter decides (R33, R35); when the quarter and a timer of the drop bus run out together, a free value says
which is taken first (assumption log 4). -/
def Obligations.TimeOnAnEmptyQueue : Prop :=
  (∀ s : State, s.pending = [] →
     (s.resetLow = true → step s = .next s) ∧
     (s.resetLow = false → 2 ≤ s.rs.quarterLeft → s.dbc.txn = none →
       s.dbc.idleTimer + 1 ≠ s.params.idleWindow →
       step s = .next { s with
         rs := { s.rs with quarterLeft := s.rs.quarterLeft - 1 }
         dbc := { s.dbc with idleTimer := min (s.dbc.idleTimer + 1) 255 } })) ∧
  (∀ (s : State) (u : UniTxn), s.pending = [] → s.resetLow = false → 2 ≤ s.rs.quarterLeft →
     s.dbc.txn = some (.uni u) → u.cond = .awaiting →
     (2 ≤ u.windowLeft →
       step s = .next { s with
         rs := { s.rs with quarterLeft := s.rs.quarterLeft - 1 }
         dbc := { s.dbc with txn := some (.uni { u with windowLeft := u.windowLeft - 1 }) } }) ∧
     (u.windowLeft = 1 → step s = exec .replyWindowExpiry s.advanceTimers)) ∧
  (∀ s : State, s.pending = [] → s.resetLow = false → 2 ≤ s.rs.quarterLeft → s.dbc.txn.isSome = true →
     (∀ u : UniTxn, s.dbc.txn = some (.uni u) → u.cond = .transmitting) →
     step s = .next { s with rs := { s.rs with quarterLeft := s.rs.quarterLeft - 1 } }) ∧
  (∀ s : State, s.pending = [] → s.resetLow = false →
     let s1 : State := { s with
       rs := { s.rs with quarterLeft := s.rs.quarterLeft - 1 }
       dbc := { s.dbc with idleTimer := min (s.dbc.idleTimer + 1) 255 } }
     let s2 : State := { s1 with freeIndex := s.freeIndex + 1 }
     (s.dbc.txn = none → s.rs.quarterLeft ≤ 1 → s.dbc.idleTimer + 1 ≠ s.params.idleWindow →
       step s = exec .phaseEvent s1) ∧
     (s.dbc.txn = none → 2 ≤ s.rs.quarterLeft → s.dbc.idleTimer + 1 = s.params.idleWindow →
       step s = exec .arbiterDecision s1) ∧
     (s.dbc.txn = none → s.rs.quarterLeft ≤ 1 → s.dbc.idleTimer + 1 = s.params.idleWindow →
       step s = .next (if Config.phaseFirst s.freeIndex = true
         then (if s2.phaseEvent.dbc.txn = none then s2.phaseEvent.arbitrate else s2.phaseEvent)
         else s2.arbitrate.phaseEvent) ∧
       exec .phaseEvent s2 = .next s2.phaseEvent ∧ exec .arbiterDecision s2 = .next s2.arbitrate) ∧
     (∀ u : UniTxn, s.dbc.txn = some (.uni u) → s.rs.quarterLeft ≤ 1 →
       let w : State := { s with
         rs := { s.rs with quarterLeft := s.rs.quarterLeft - 1 }
         dbc := { s.dbc with txn := some (.uni
           (if u.cond = .awaiting then { u with windowLeft := u.windowLeft - 1 } else u)) } }
       let w2 : State := { w with freeIndex := s.freeIndex + 1 }
       (u.cond = .transmitting ∨ 2 ≤ u.windowLeft → step s = exec .phaseEvent w) ∧
       (u.cond = .awaiting → u.windowLeft ≤ 1 →
         step s = .next (if Config.phaseFirst s.freeIndex = true then w2.phaseEvent.windowExpire
           else w2.windowExpire.phaseEvent) ∧
         exec .phaseEvent w2 = .next w2.phaseEvent ∧
         exec .replyWindowExpiry w2 = .next w2.windowExpire)) ∧
     (∀ f : BroadFrame, s.dbc.txn = some (.broad f) → s.rs.quarterLeft ≤ 1 →
       step s = exec .phaseEvent { s with rs := { s.rs with quarterLeft := s.rs.quarterLeft - 1 } }))

/-- R4, R165: every command answers a next state. In it no point's width or held mark differs, unless the command's
frame is a CONFIGURE NODE or a REMOVE NODE, or the command took a full reset; nor does time change one.

The model's choice (assumption log 6): a command whose event cannot take place in the present state changes
nothing. R26: a frame on the drop bus is not heard while the part transmits.

R68, R177: the row of a kind is its request. A well-checked frame is its kind's request whichever row carries it
(assumption log 6). -/
def Obligations.EveryCommandAnswersANextState : Prop :=
  ((∀ (c : Instr) (s : State), ∃ t : State, exec c s = .next t ∧
     (c.frameKind? = some .configureNode ∨ c.frameKind? = some .removeNode ∨
       (((∃ d ∈ [Instr.powerOn, .resetAsserted, .resetReleased, .fullResetTaken, .trunkFrameTransmitted], c = d) ∨
           c.frameKind? = some .fullReset) ∧ ∃ low : Bool, t = { s.fullReset with resetLow := low }) ∨
       ∀ (n : NodeIdx) (p : PointIdx),
         (t.point n p).width = (s.point n p).width ∧ (t.point n p).held = (s.point n p).held)) ∧
   (∀ s : State, s.pending = [] → ∃ t : State, step s = .next t ∧
     ∀ (n : NodeIdx) (p : PointIdx),
       (t.point n p).width = (s.point n p).width ∧ (t.point n p).held = (s.point n p).held)) ∧
  ((∀ s : State,
     ((∀ u : UniTxn, s.dbc.txn = some (.uni u) → u.cond ≠ .transmitting) →
       exec .unicastTransmissionEnd s = .next s) ∧
     ((∀ u : UniTxn, s.dbc.txn = some (.uni u) → u.cond ≠ .awaiting) →
       exec .replyWindowExpiry s = .next s) ∧
     ((∀ tag : Byte, s.dbc.txn ≠ some (.broad (.take tag))) → exec .takeTransmissionEnd s = .next s) ∧
     ((∀ tag : Byte, tag ≠ 0 → s.dbc.txn ≠ some (.broad (.abandon tag))) →
       exec .abandonTransmissionEnd s = .next s) ∧
     (s.dbc.txn ≠ some (.broad (.abandon 0)) → exec .clearTransmissionEnd s = .next s) ∧
     (s.dbc.txn.isSome = true → exec .idleWindowElapsed s = .next s) ∧
     (s.rs.phase ≠ 3 → exec .intervalExpiry s = .next s) ∧
     (s.resetLow = false → exec .resetReleased s = .next s) ∧
     (s.tp.queue = [] → exec .trunkFrameTransmitted s = .next s) ∧
     (s.tp.closing = false ∨ 2 ≤ s.tp.queue.length → exec .fullResetTaken s = .next s)) ∧
   (∀ (f : List Byte) (s : State),
     exec (.dropReplyTaken f) s = exec (.freeFrameReceived f) s ∧
     (s.dbc.txn.isSome = true → (∀ u : UniTxn, s.dbc.txn = some (.uni u) → u.cond = .transmitting) →
       exec (.dropReplyTaken f) s = .next s))) ∧
  (∀ (k : ReqKind) (rq : Request) (s : State),
     exec (k.command rq) s = .next (takeRequest k rq s) ∧
     (∀ b : Byte, ReqKind.ofCode? b = some k → exec (.unknownKindFrame b rq) s = .next (takeRequest k rq s)) ∧
     ∀ (f : List Byte) (b : Byte), ReqKind.ofCode? b = some k → checkGood f = true →
       readTrunkFrame f = some (b, rq) →
       exec (.closingFrameDiscarded f) s = .next (takeRequest k rq s) ∧
       exec (.trunkCrcFailure f false) s = .next (takeRequest k rq s))

/-! ## Resets -/

/-- R164, R165, R84: what each source of a full reset leaves. The queue of commands, the pin level and the free
values' counter are not the part's (assumption log 2).

R164: while RESET is held low, no event but POWER_ON, RESET_ASSERTED and RESET_RELEASED does anything. -/
def Obligations.ResetsAndTheResetPin : Prop :=
  (∀ s : State,
     exec .powerOn s = .next s.fullReset ∧
     exec .resetAsserted s = .next { s.fullReset with resetLow := true } ∧
     (s.resetLow = true → exec .resetReleased s = .next { s.fullReset with resetLow := false }) ∧
     (s.resetLow = false → s.tp.closing = true → s.tp.queue.length = 1 →
       exec .fullResetTaken s = .next s.fullReset ∧ exec .trunkFrameTransmitted s = .next s.fullReset)) ∧
  (∀ (c : Instr) (s : State), s.resetLow = true →
     c ≠ .powerOn → c ≠ .resetAsserted → c ≠ .resetReleased → exec c s = .next s)

/-- The reset values of the tables of R1, R3, R41, R65, R85, R102, R119, R127, R152, R153 and R168. -/
def Obligations.FullResetValues : Prop :=
  ∀ s : State,
    (∀ n : NodeIdx, (s.fullReset.node n).state = .absent ∧ (s.fullReset.node n).cls = .tight ∧
      (s.fullReset.node n).debt = 0 ∧ (s.fullReset.node n).alternation = false ∧
      (s.fullReset.node n).silence = 0 ∧ (s.fullReset.node n).probe = 0) ∧
    (∀ (n : NodeIdx) (p : PointIdx),
      s.fullReset.point n p = { width := none, held := false, active := none, pending := none }) ∧
    s.fullReset.dbc.txn = none ∧ s.fullReset.dbc.idleTimer = 0 ∧
    s.fullReset.dbc.rotation = [.fwd, .cmt, .rnw] ∧ s.fullReset.dbc.lead = [.fwd, .rnw] ∧
    s.fullReset.dbc.yieldMarker = false ∧
    s.fullReset.rs = { quarterLeft := 500, phase := 0, intervalCount := 0, lastRenewed := 47 } ∧
    s.fullReset.candidate = none ∧
    s.fullReset.tp = { queue := [], pause := false, closing := false } ∧
    s.fullReset.pou = { forward := [], inHand := none, summary := {}, lastRefusal := none } ∧
    s.fullReset.claims = [] ∧
    (∀ o : Originator, s.fullReset.stage o =
      { state := .closed, entries := [], life := none, request := none, tag := none }) ∧
    s.fullReset.poolFree = 192 ∧
    s.fullReset.ce = { queue := [], commit := none, nextTag := 1, clearOwed := false } ∧
    s.fullReset.exq = { queue := [], flags := 0, mask := 0 } ∧
    (∀ c : Counter, s.fullReset.counters.get c = 0) ∧
    s.fullReset.mode = .halted ∧
    s.fullReset.params =
      { renewalInterval := 20, stagger := true, highWatermark := 4, panicWatermark := 6,
        wakeDebits := 2, replyWindowCode := 3, idleWindow := 20, arbMode := .rotate,
        commitPace := .yield, claimTimeout := 25, stageTimeout := 100,
        overrangePotency := .potent, conflictPotency := .potent, brokenPotency := .potent,
        noticeOriginator := 0, managerSet := 15 }

/-! ## Generated frames, records and counters -/

/-- R82, R83, R84: a response generated while the TP is not CLOSING joins the tail, asserting PAUSE when it makes the
occupancy 24; at 32 frames it is lost and counted; while CLOSING it is discarded uncounted.

R82, R83: the frame at the head leaves at the end of its transmission, and PAUSE is released when this makes the
occupancy 16. -/
def Obligations.TransmitQueueTraffic : Prop :=
  (∀ (r : Response) (s : State),
     (s.tp.closing = true → s.respond r = s) ∧
     (s.tp.closing = false → s.tp.queue.length < 32 →
       s.respond r = { s with tp := { s.tp with
         queue := s.tp.queue ++ [.response r]
         pause := s.tp.pause || decide (s.tp.queue.length = 23) } }) ∧
     (s.tp.closing = false → 32 ≤ s.tp.queue.length → s.respond r = s.count .responsesLost)) ∧
  (∀ (f : TrunkFrame) (rest : List TrunkFrame) (s : State), s.resetLow = false →
     s.tp.queue = f :: rest → (s.tp.closing = false ∨ rest ≠ []) →
     exec .trunkFrameTransmitted s = .next { s with tp := { s.tp with
       queue := rest
       pause := s.tp.pause && decide (rest.length ≠ 16) } })

/-- R149, R82, R84: an event that began in `b` and has reached `a` generates one NOTICE exactly when some flag is set
and unmasked in `a` that was not both in `b`; it carries the five flags and the number of records, and joins the
queue unless that is full or the TP is CLOSING.

R82, R149: an answer is the response and then the NOTICE of the event. -/
def Obligations.NoticeAtTheEndOfAnEvent : Prop :=
  (∀ b a : State,
     closeEvent b a =
       if (∃ i : Fin 5, (a.exq.flags.getLsbD i.val && a.exq.mask.getLsbD i.val) = true ∧
             (b.exq.flags.getLsbD i.val && b.exq.mask.getLsbD i.val) = false) ∧
           a.tp.closing = false ∧ a.tp.queue.length < 32
       then { a with tp := { a.tp with
         queue := a.tp.queue ++ [.notice a.params.noticeOriginator a.exq.flags a.exq.queue.length]
         pause := a.tp.pause || decide (a.tp.queue.length = 23) } }
       else a) ∧
  (∀ (b a : State) (r : Response), answer b r a = closeEvent b (a.respond r))

/-- R144, R43, R146: a record offered: appended with the interval count as its stamp when fewer than 32 are held,
setting EXC_PENDING if the queue was empty; otherwise lost, counted, with EXC_LOST set.

R43, assumption log 3: whatever the free value is, the records of one phase event are those of the three groups,
each group in its own order.

R150: a counter's increment adds 1, wraps from 65535 to 0, and sets COUNTER_WRAP exactly at its wrap; the other
counters, and all else, keep their values. -/
def Obligations.RecordsAndCounters : Prop :=
  (∀ (b : ExcBody) (s : State),
     (s.exq.queue.length < 32 →
       s.offer b = { s with exq := { s.exq with
         queue := s.exq.queue ++ [{ body := b, stamp := s.rs.intervalCount }]
         flags := if s.exq.queue = [] then s.exq.flags ||| 1#5 else s.exq.flags } }) ∧
     (32 ≤ s.exq.queue.length →
       s.offer b = { s.count .exceptionsLost with exq :=
         { (s.count .exceptionsLost).exq with
           flags := (s.count .exceptionsLost).exq.flags ||| 2#5 } })) ∧
  (∀ (pick : Nat → Nat) (i : Nat) (a b c : List ExcBody),
     let r := (interleave pick (a.length + b.length + c.length) i a b c).1
     r.Perm (a ++ b ++ c) ∧ a.Sublist r ∧ b.Sublist r ∧ c.Sublist r) ∧
  (∀ (c d : Counter) (s : State),
     s.count c = { s with counters := (s.count c).counters, exq := (s.count c).exq } ∧
     (s.count c).counters.get d =
       (if d = c then s.counters.get d + 1 else s.counters.get d) ∧
     (s.count c).exq =
       (if s.counters.get c = 65535#16 then { s.exq with flags := s.exq.flags ||| 4#5 } else s.exq))

/-- While a transaction is in flight, the end of an event is its NOTICE alone: no drain ends (R158) and no decision
is taken (R35).

R35, R158: with no drain to end, a bus that was FREE before, and no requester that begins to wait or changes its
level, the end of an event is its NOTICE alone.

R158, R35: an event after which the bus is FREE and at which no decision is due ends the drain if it can and
generates its NOTICE: nobody waits, or the bus was FREE before and nobody begins to wait.

R35, R158: when the bus is FREE after the event and was not before, or a requester begins to wait or changes
level, the arbiter decides, after the drain's end and the event's NOTICE. That the NOTICE stands before the
decision is the model's choice (assumption log 7).

R34, R35: who waits; and a requester begins to wait when it waits after the event and did not before, or, for
RNW, waits at another level. -/
def Obligations.EndOfAnEvent : Prop :=
  (∀ b a : State, a.dbc.txn.isSome = true → finish b a = closeEvent b a) ∧
  (∀ b a : State, a.drained = false → b.dbc.txn = none → beginsToWait b a = false →
     finish b a = closeEvent b a) ∧
  ((∀ b a : State, a.dbc.txn = none →
     (a.fwdWaits || a.cmtWaits || a.rnwWaits) = false ∨ (b.dbc.txn = none ∧ beginsToWait b a = false) →
     finish b a = closeEvent b a.endDrain) ∧
   (∀ a : State, a.endDrain =
     if a.mode = .draining ∧ a.ce.commit = none ∧ a.ce.clearOwed = false ∧ a.dbc.txn = none
     then { a with mode := .halted, exq := { a.exq with flags := a.exq.flags ||| 16#5 } } else a)) ∧
  (∀ b a : State, a.dbc.txn = none →
     (a.fwdWaits || a.cmtWaits || a.rnwWaits) = true →
     (b.dbc.txn.isSome = true ∨ beginsToWait b a = true) →
     finish b a = (closeEvent b a.endDrain).arbitrate) ∧
  (∀ b a : State,
     (a.fwdWaits = true ↔ a.pou.forward ≠ []) ∧ (a.cmtWaits = true ↔ a.cmtWork ≠ none) ∧
     (a.rnwWaits = true ↔ a.candidate ≠ none) ∧
     (beginsToWait b a = true ↔
       (a.pou.forward ≠ [] ∧ b.pou.forward = []) ∨ (a.cmtWork ≠ none ∧ b.cmtWork = none) ∨
       ∃ o : Offer, a.candidate = some o ∧ ∀ o' : Offer, b.candidate = some o' → o'.level ≠ o.level))

/-! ## Frames that are refused -/

/-- R67, R176: a frame that fails its check, is too short or is cut short is counted and draws no response.

R68, R177: an unknown kind code, or a destination of 49..63, is counted and answered MALFORMED with originator,
tag and kind echoed, the kind 0x7F as 0x00.

R84: while the TP is CLOSING every frame received on the trunk is discarded: not checked, not counted, not
answered. -/
def Obligations.FramesTheTrunkPortAnswersItself : Prop :=
  (∀ (f : List Byte) (cut : Bool) (s : State), s.takesFrames = true →
     (cut = true ∨ f.length < 6 ∨
       f.drop (f.length - 2) ≠ wordBytes (crc16 (f.take (f.length - 2)))) →
     exec (.trunkCrcFailure f cut) s = .next (closeEvent s (s.count .trunkCrcErrors))) ∧
  (∀ (k : Byte) (rq : Request) (s : State), s.takesFrames = true →
     (ReqKind.ofCode? k = none ∨ 49 ≤ rq.destination.toNat) →
     exec (.unknownKindFrame k rq) s = .next
       (answer s
         { originator := rq.originator, tag := rq.tag, kind := if k = 0x7F then 0x00 else k,
           status := .malformed }
         (s.count .trunkMalformed))) ∧
  (∀ (f : List Byte) (cut : Bool) (k : Byte) (rq : Request) (s : State), s.tp.closing = true →
     exec (.closingFrameDiscarded f) s = .next s ∧ exec (.trunkCrcFailure f cut) s = .next s ∧
     exec (.unknownKindFrame k rq) s = .next s ∧ ∀ rk : ReqKind, takeRequest rk rq s = s)

/-- R69, R84, R164, R177: when frames are taken, the node kinds, the nodes that addresses name, and a body whose
length byte is right.

R177, Table 11-2: the bodies that each kind's reader takes, byte by byte; it takes no other.

R81: the response to a request carries its originator, its tag and the code of its kind, with the status, the
flags and the body given.

R68, R177: a node kind whose destination is no node address, or whose body does not read, is answered MALFORMED,
whatever its destination: the frame's originator and tag, the kind, no body; and changes nothing but the counter.

R68, R177: a request for the part whose destination is not 0, or whose body does not read, is answered MALFORMED
alike.

R71, R72, R70: the arrival checks of the four forwarded kinds in their order, on a frame that is well formed:
OFFLINE outside RUN, NODE_STATE for an ABSENT or PARKED node, UNDECLARED for an undeclared point.

R72, R70: the arrival checks of the four node kinds that are not forwarded, in any mode, on a frame that is well
formed: NODE_STATE for an ABSENT node, and of a CLAIM for a PARKED one; UNDECLARED for an undeclared point. -/
def Obligations.RefusedBeforeTheEffect : Prop :=
  ((∀ s : State, s.takesFrames = true ↔ s.resetLow = false ∧ s.tp.closing = false) ∧
   (∀ k : ReqKind, k.nodeKind = true ↔
     k ∈ [ReqKind.write, .modify, .read, .release, .test, .claim, .unclaim, .stage]) ∧
   (∀ (a : Nat) (n : NodeIdx), NodeIdx.ofAddr? a = some n ↔ a = n.val + 1) ∧
   ∀ (rq : Request) (b : List Byte),
     rq.sizedBody = some b ↔ b = rq.body ∧ rq.length.toNat = b.length ∧ b.length ≤ 96) ∧
  (∀ b : List Byte,
     (∀ its : List Item, readItemsBody b = some its ↔
       1 ≤ its.length ∧ its.length ≤ 16 ∧ (its.map Item.point).Nodup ∧
       b = byteOf its.length :: its.flatMap fun it =>
         [byteOf it.point.val, byteOf (it.value.toNat / 256), byteOf it.value.toNat]) ∧
     (∀ pts : List PointIdx, readPointsBody b = some pts ↔
       1 ≤ pts.length ∧ pts.length ≤ 16 ∧ pts.Nodup ∧
       b = byteOf pts.length :: pts.map fun p => byteOf p.val) ∧
     (∀ (p : PointIdx) (o : BitOp) (i : Fin 16), readModifyBody b = some (p, o, i) ↔
       b = [byteOf p.val,
         match o with
         | .set => 0x01
         | .clear => 0x02
         | .toggle => 0x03
         | .reverse => 0x04,
         byteOf i.val]) ∧
     (∀ it : Item, readItemBody b = some it ↔
       b = [byteOf it.point.val, byteOf (it.value.toNat / 256), byteOf it.value.toNat]) ∧
     (∀ (p : PointIdx) (i : Fin 16), readTestBody b = some (p, i) ↔ b = [byteOf p.val, byteOf i.val]) ∧
     (∀ p : PointIdx, readPointBody b = some p ↔ b = [byteOf p.val]) ∧
     (readEmptyBody b = some () ↔ b = []) ∧
     (∀ (n : NodeIdx) (ds : List Decl), readConfigureBody b = some (n, ds) ↔
       1 ≤ ds.length ∧ ds.length ≤ 16 ∧ (ds.map Decl.point).Nodup ∧
       (∀ d ∈ ds, 1 ≤ d.width ∧ d.width ≤ 16) ∧
       b = byteOf (n.val + 1) :: byteOf ds.length :: ds.flatMap fun d =>
         [byteOf d.point.val, byteOf d.width, if d.held then 0x01 else 0x00]) ∧
     (∀ n : NodeIdx, readNodeBody b = some n ↔ b = [byteOf (n.val + 1)]) ∧
     (∀ ps : List (ParamId × Byte), readParamsBody b = some ps ↔
       1 ≤ ps.length ∧ ps.length ≤ 16 ∧ (ps.map Prod.fst).Nodup ∧
       b = byteOf ps.length :: ps.flatMap fun i => [i.1.code, i.2]) ∧
     (readModeBody b = some .run ↔ b = [0x01]) ∧ (readModeBody b = some .drain ↔ b = [0x02]) ∧
     (readOptionBody b = some false ↔ b = [0x00]) ∧ (readOptionBody b = some true ↔ b = [0x01]) ∧
     (∀ k : Nat, readNumberBody b = some k ↔ 1 ≤ k ∧ k ≤ 8 ∧ b = [byteOf k]) ∧
     ∀ m : BitVec 5, readMaskBody b = some m ↔ b = [m.setWidth 8]) ∧
  ((∀ (rq : Request) (k : ReqKind) (st : Status) (flags : RespFlags) (body : List Byte),
     replyTo rq k st flags body =
       { originator := rq.originator, tag := rq.tag, kind := k.code, status := st, flags := flags, body := body }) ∧
   ∀ (rq : Request) (k : ReqKind) (st : Status),
     replyTo rq k st = replyTo rq k st
       { passed := { overrange := false, conflict := false, broken := false }
         zero := false
         changed := false
         unset := false
         pending := false } []) ∧
  (∀ (rq : Request) (s : State), s.takesFrames = true →
     let no : Byte → State := fun kind => answer s
       { originator := rq.originator, tag := rq.tag, kind := kind, status := .malformed, flags := {}, body := [] }
       (s.count .trunkMalformed)
     (NodeIdx.ofAddr? rq.destination.toNat = none ∨ rq.sizedBody.bind readItemsBody = none →
       exec (.write rq) s = .next (no 0x01) ∧
       exec (.stage rq) s = .next (no 0x08)) ∧
     (NodeIdx.ofAddr? rq.destination.toNat = none ∨ rq.sizedBody.bind readModifyBody = none →
       exec (.modify rq) s = .next (no 0x02)) ∧
     (NodeIdx.ofAddr? rq.destination.toNat = none ∨ rq.sizedBody.bind readPointsBody = none →
       exec (.read rq) s = .next (no 0x03)) ∧
     (NodeIdx.ofAddr? rq.destination.toNat = none ∨ rq.sizedBody.bind readItemBody = none →
       exec (.release rq) s = .next (no 0x04)) ∧
     (NodeIdx.ofAddr? rq.destination.toNat = none ∨ rq.sizedBody.bind readTestBody = none →
       exec (.test rq) s = .next (no 0x05)) ∧
     (NodeIdx.ofAddr? rq.destination.toNat = none ∨ rq.sizedBody.bind readPointBody = none →
       exec (.claim rq) s = .next (no 0x06) ∧
       exec (.unclaim rq) s = .next (no 0x07))) ∧
  (∀ (k : ReqKind) (rq : Request) (s : State), s.takesFrames = true → k.nodeKind = false →
     let no : State := answer s
       { originator := rq.originator, tag := rq.tag, kind := k.code, status := .malformed, flags := {}, body := [] }
       (s.count .trunkMalformed)
     (rq.destination.toNat ≠ 0 ∨
       (k ∈ [ReqKind.commit, .discard, .readParameters, .flush, .fullReset, .readNotices] ∧
         rq.sizedBody.bind readEmptyBody = none) ∨
       (k = .configureNode ∧ rq.sizedBody.bind readConfigureBody = none) ∨
       (k ∈ [ReqKind.removeNode, .parkNode, .unparkNode, .nodeStatus] ∧
         rq.sizedBody.bind readNodeBody = none) ∨
       (k = .setParameters ∧ rq.sizedBody.bind readParamsBody = none) ∨
       (k = .setMode ∧ rq.sizedBody.bind readModeBody = none) ∨
       (k ∈ [ReqKind.readStatus, .readCounters] ∧ rq.sizedBody.bind readOptionBody = none) ∨
       (k = .readExceptions ∧ rq.sizedBody.bind readNumberBody = none) ∨
       (k = .setNoticeMask ∧ rq.sizedBody.bind readMaskBody = none)) →
     takeRequest k rq s = no) ∧
  (∀ (rq : Request) (n : NodeIdx) (s : State) (k : ReqKind) (pts : List PointIdx), s.takesFrames = true →
     ((k = .write ∧ ∃ items, ForNode readItemsBody rq n items ∧ pts = items.map Item.point) ∨
       (k = .modify ∧ ∃ m, ForNode readModifyBody rq n m ∧ pts = [m.1]) ∨
       (k = .read ∧ ForNode readPointsBody rq n pts) ∨
       (k = .release ∧ ∃ it, ForNode readItemBody rq n it ∧ pts = [it.point])) →
     (s.mode ≠ .run → takeRequest k rq s = answer s (replyTo rq k .offline) s) ∧
     (s.mode = .run → (s.node n).state = .absent ∨ (s.node n).state = .parked →
       takeRequest k rq s = answer s (replyTo rq k .nodeState) s) ∧
     (s.mode = .run → (s.node n).state.inService = true →
       (∃ p ∈ pts, (s.point n p).width = none) →
       takeRequest k rq s = answer s (replyTo rq k .undeclared) s)) ∧
  (∀ (rq : Request) (n : NodeIdx) (s : State) (k : ReqKind) (pts : List PointIdx), s.takesFrames = true →
     ((k = .test ∧ ∃ t, ForNode readTestBody rq n t ∧ pts = [t.1]) ∨
       (k ∈ [ReqKind.claim, .unclaim] ∧ ∃ p, ForNode readPointBody rq n p ∧ pts = [p]) ∨
       (k = .stage ∧ ∃ items, ForNode readItemsBody rq n items ∧ pts = items.map Item.point)) →
     ((s.node n).state = .absent ∨ k = .claim ∧ (s.node n).state = .parked →
       takeRequest k rq s = answer s (replyTo rq k .nodeState) s) ∧
     ((s.node n).state ≠ .absent → (k = .claim → (s.node n).state ≠ .parked) →
       (∃ p ∈ pts, (s.point n p).width = none) →
       takeRequest k rq s = answer s (replyTo rq k .undeclared) s))

/-- R71, R167: a well-formed management request from outside the manager set is refused NOT_PERMITTED with no body,
and changes nothing else. -/
def Obligations.ManagementNeedsTheManagerSet : Prop :=
  ∀ (k : ReqKind) (rq : Request) (s : State), s.takesFrames = true → rq.destination.toNat = 0 →
    s.params.managerSet.getLsbD rq.originator.val = false →
    (∃ body, rq.sizedBody = some body ∧
      ((k = .configureNode ∧ (readConfigureBody body).isSome = true) ∨
        (k ∈ [ReqKind.removeNode, .parkNode, .unparkNode, .nodeStatus] ∧
          (readNodeBody body).isSome = true) ∨
        (k = .setParameters ∧ (readParamsBody body).isSome = true) ∨
        (k ∈ [ReqKind.readParameters, .flush, .fullReset, .readNotices] ∧ body = []) ∨
        (k = .setMode ∧ (readModeBody body).isSome = true) ∨
        (k ∈ [ReqKind.readStatus, .readCounters] ∧ (readOptionBody body).isSome = true) ∨
        (k = .readExceptions ∧ (readNumberBody body).isSome = true) ∨
        (k = .setNoticeMask ∧ (readMaskBody body).isSome = true))) →
    takeRequest k rq s = answer s (replyTo rq k .notPermitted) s

/-! ## Requests to nodes -/

/-- R86, R75, R76: a WRITE in RUN to declared points of a node in service, its values in range and with room in the
queue, joins the tail of the forward queue; with no room it is refused BUSY and counted.

R73, R95, R98, R99, R100: a WRITE with a value above its point's width. POTENT: refused OVERRANGE, counted, and
recorded with the first offending point. IMPOTENT: with no room it is refused BUSY and no pass is made; else the
offending values are replaced by their low bits, the pass is made, and the entry carries OVERRANGE.

R73: an item's value is above its point's width.

R98, R99, R100, R101: what a potent refusal and an impotent pass record.

R75: the forward queue has no room for an originator at 16 entries, or at 8 of its own. -/
def Obligations.WriteAtArrival : Prop :=
  (∀ (rq : Request) (n : NodeIdx) (items : List Item) (s : State), s.takesFrames = true →
     ForNode readItemsBody rq n items → Forwardable s n (items.map Item.point) → Fits s n items →
     (s.forwardFull rq.originator = false →
       exec (.write rq) s = .next (finish s (queued s
         { originator := rq.originator, tag := rq.tag, node := n, op := .write items }))) ∧
     (s.forwardFull rq.originator = true →
       exec (.write rq) s = .next
         (finish s ((s.count .requestsBusy).respond (replyTo rq .write .busy))))) ∧
  (∀ (rq : Request) (n : NodeIdx) (items : List Item) (it : Item) (s : State), s.takesFrames = true →
     ForNode readItemsBody rq n items → Forwardable s n (items.map Item.point) →
     items.find? (itemExceeds (s.node n)) = some it →
     (s.params.overrangePotency = .potent →
       exec (.write rq) s = .next (finish s
         ((s.potentRefusal rq.originator rq.tag .write n it.point .overrange).respond
           (replyTo rq .write .overrange)))) ∧
     (s.params.overrangePotency = .impotent → s.forwardFull rq.originator = false →
       exec (.write rq) s = .next (finish s (queued (s.impotentPass .overrange)
         { originator := rq.originator, tag := rq.tag, node := n,
           op := .write (items.map fun i =>
             { i with value :=
               BitVec.ofNat 16 (i.value.toNat % 2 ^ ((s.point n i.point).width.getD 16)) }),
           passed := { overrange := true } }))) ∧
     (s.params.overrangePotency = .impotent → s.forwardFull rq.originator = true →
       exec (.write rq) s = .next
         (finish s ((s.count .requestsBusy).respond (replyTo rq .write .busy))))) ∧
  (∀ (e : NodeEntry) (it : Item),
     itemExceeds e it = true ↔ ∃ w : Nat, (e.point it.point).width = some w ∧ 2 ^ w ≤ it.value.toNat) ∧
  (∀ (o : Originator) (tag : Byte) (k : ReqKind) (n : NodeIdx) (p : PointIdx) (c : Condition) (s : State),
     s.potentRefusal o tag k n p c = { s.count .potentRefusals with
       pou := { s.pou with lastRefusal := some (
         { originator := o, tag := tag, kind := k, node := n, point := p, condition := c } : LastRefusal) } } ∧
     s.impotentPass c = { s.count .impotentWrites with
       pou := { s.pou with summary :=
         { overrange := s.pou.summary.overrange || decide (c = .overrange)
           conflict := s.pou.summary.conflict || decide (c = .conflict)
           broken := s.pou.summary.broken || decide (c = .broken) } } }) ∧
  (∀ (s : State) (o : Originator),
     s.forwardFull o = true ↔
       16 ≤ s.pou.forward.length ∨ 8 ≤ (s.pou.forward.filter fun e => decide (e.originator = o)).length)

/-- R88, R72, R75: a MODIFY in RUN of a declared point of a node in service joins the forward queue, or is refused
BAD_BIT when its bit is at or above the width.

R92, R75: a READ in RUN of declared points of a node in service joins the forward queue.

R75: the forward queue has no room for an originator at 16 entries, or at 8 of its own. -/
def Obligations.ModifyAndReadAtArrival : Prop :=
  (∀ (rq : Request) (n : NodeIdx) (p : PointIdx) (o : BitOp) (b : Fin 16) (w : Nat) (s : State),
     s.takesFrames = true → ForNode readModifyBody rq n (p, o, b) → Forwardable s n [p] →
     (s.point n p).width = some w →
     (w ≤ b.val → exec (.modify rq) s = .next (answer s (replyTo rq .modify .badBit) s)) ∧
     (b.val < w → s.forwardFull rq.originator = false →
       exec (.modify rq) s = .next (finish s (queued s
         { originator := rq.originator, tag := rq.tag, node := n, op := .modify p o b }))) ∧
     (b.val < w → s.forwardFull rq.originator = true →
       exec (.modify rq) s = .next
         (finish s ((s.count .requestsBusy).respond (replyTo rq .modify .busy))))) ∧
  (∀ (rq : Request) (n : NodeIdx) (pts : List PointIdx) (s : State),
     s.takesFrames = true → ForNode readPointsBody rq n pts → Forwardable s n pts →
     (s.forwardFull rq.originator = false →
       exec (.read rq) s = .next (finish s (queued s
         { originator := rq.originator, tag := rq.tag, node := n, op := .read pts }))) ∧
     (s.forwardFull rq.originator = true →
       exec (.read rq) s = .next
         (finish s ((s.count .requestsBusy).respond (replyTo rq .read .busy))))) ∧
  (∀ (s : State) (o : Originator),
     s.forwardFull o = true ↔
       16 ≤ s.pou.forward.length ∨ 8 ≤ (s.pou.forward.filter fun e => decide (e.originator = o)).length)

/-- R109, R75: a RELEASE in RUN of a value in range joins the forward queue when its sender holds a claim on the
point, whatever the claim's state, and is refused NO_CLAIM when it holds none.

R73, R95, R98, R100, R109: a RELEASE with a value above its point's width. POTENT: refused OVERRANGE, counted and
recorded. IMPOTENT: NO_CLAIM and BUSY make no pass; else the value is replaced by its low bits, the pass is made,
and the entry carries OVERRANGE.

R75: the forward queue has no room for an originator at 16 entries, or at 8 of its own. -/
def Obligations.ReleaseAtArrival : Prop :=
  (∀ (rq : Request) (n : NodeIdx) (it : Item) (s : State),
     s.takesFrames = true → ForNode readItemBody rq n it → Forwardable s n [it.point] →
     Fits s n [it] →
     (s.claimOf rq.originator n it.point = none →
       exec (.release rq) s = .next (finish s (s.respond (replyTo rq .release .noClaim)))) ∧
     ((s.claimOf rq.originator n it.point).isSome = true → s.forwardFull rq.originator = false →
       exec (.release rq) s = .next (finish s (queued s
         { originator := rq.originator, tag := rq.tag, node := n, op := .release it }))) ∧
     ((s.claimOf rq.originator n it.point).isSome = true → s.forwardFull rq.originator = true →
       exec (.release rq) s = .next
         (finish s ((s.count .requestsBusy).respond (replyTo rq .release .busy))))) ∧
  (∀ (rq : Request) (n : NodeIdx) (it : Item) (w : Nat) (s : State),
     s.takesFrames = true → ForNode readItemBody rq n it → Forwardable s n [it.point] →
     (s.point n it.point).width = some w → 2 ^ w ≤ it.value.toNat →
     (s.params.overrangePotency = .potent →
       exec (.release rq) s = .next (finish s
         ((s.potentRefusal rq.originator rq.tag .release n it.point .overrange).respond
           (replyTo rq .release .overrange)))) ∧
     (s.params.overrangePotency = .impotent →
       (s.claimOf rq.originator n it.point = none →
         exec (.release rq) s = .next (finish s (s.respond (replyTo rq .release .noClaim)))) ∧
       ((s.claimOf rq.originator n it.point).isSome = true → s.forwardFull rq.originator = false →
         exec (.release rq) s = .next (finish s (queued (s.impotentPass .overrange)
           { originator := rq.originator, tag := rq.tag, node := n,
             op := .release { it with value := BitVec.ofNat 16 (it.value.toNat % 2 ^ w) },
             passed := { overrange := true } }))) ∧
       ((s.claimOf rq.originator n it.point).isSome = true → s.forwardFull rq.originator = true →
         exec (.release rq) s = .next
           (finish s ((s.count .requestsBusy).respond (replyTo rq .release .busy)))))) ∧
  (∀ (s : State) (o : Originator),
     s.forwardFull o = true ↔
       16 ≤ s.pou.forward.length ∨ 8 ≤ (s.pou.forward.filter fun e => decide (e.originator = o)).length)

/-- R91: a TEST of a declared point of a node that is not ABSENT, its bit below the width, in any mode: the bit of
the active value with ZERO, or UNSET and no bit. Nothing else changes. -/
def Obligations.TestAnswersFromTheShadow : Prop :=
  ∀ (rq : Request) (n : NodeIdx) (p : PointIdx) (b : Fin 16) (w : Nat) (s : State),
    s.takesFrames = true → ForNode readTestBody rq n (p, b) → (s.node n).state ≠ .absent →
    (s.point n p).width = some w →
    (w ≤ b.val → exec (.test rq) s = .next (answer s (replyTo rq .test .badBit) s)) ∧
    (b.val < w → (s.point n p).active = none →
      exec (.test rq) s = .next (answer s (replyTo rq .test .ok { unset := true } []) s)) ∧
    (∀ v : Word, b.val < w → (s.point n p).active = some v →
      exec (.test rq) s = .next (answer s
        (replyTo rq .test .ok { zero := !v.getLsbD b.val }
          [if v.getLsbD b.val then 0x01 else 0x00]) s))

/-! ## Claims -/

/-- R103: the claim record that a point, or a point and an originator, names; and a change of the record of a point.

R104, R105: a CLAIM of a declared point of a node in service, in any mode: CLAIMED with the holder, renewed,
CLAIM_FULL, or added.

R106: an UNCLAIM of a declared point of a node that is not ABSENT, in any mode: NO_CLAIM without a record of the
sender, BUSY while it is releasing, and else the record goes, its state and value reported. -/
def Obligations.ClaimAndUnclaim : Prop :=
  (∀ (o : Originator) (n : NodeIdx) (p : PointIdx) (f : Claim → Claim) (s : State),
     s.claimOn n p = s.claims.find? (fun c => decide (c.node = n ∧ c.point = p)) ∧
     s.claimOf o n p = s.claims.find? (fun c => decide (c.node = n ∧ c.point = p ∧ c.originator = o)) ∧
     s.mapClaim n p f = { s with claims := s.claims.map fun c => if c.node = n ∧ c.point = p then f c else c }) ∧
  (∀ (rq : Request) (n : NodeIdx) (p : PointIdx) (s : State),
     s.takesFrames = true → ForNode readPointBody rq n p → (s.node n).state.inService = true →
     (s.point n p).width.isSome = true →
     let ok := replyTo rq .claim .ok
       { unset := (s.point n p).active.isNone, pending := (s.point n p).pending.isSome }
       ((s.point n p).active.elim [] wordBytes)
     (∀ c : Claim, s.claimOn n p = some c → c.originator ≠ rq.originator →
       exec (.claim rq) s = .next
         (answer s (replyTo rq .claim .claimed {} [byteOf c.originator.val]) s)) ∧
     (∀ c : Claim, s.claimOn n p = some c → c.originator = rq.originator →
       exec (.claim rq) s = .next (answer s ok { s with claims := s.claims.map fun d =>
         if d.node = n ∧ d.point = p then
           { d with value := (s.point n p).active, state := .intact, life := s.params.claimTimeout }
         else d })) ∧
     (s.claimOn n p = none → 8 ≤ s.claims.length →
       exec (.claim rq) s = .next (answer s (replyTo rq .claim .claimFull) s)) ∧
     (s.claimOn n p = none → s.claims.length < 8 →
       exec (.claim rq) s = .next (answer s ok { s with claims := s.claims ++
         [{ originator := rq.originator, node := n, point := p, value := (s.point n p).active,
            state := .intact, releasing := false, life := s.params.claimTimeout }] }))) ∧
  (∀ (rq : Request) (n : NodeIdx) (p : PointIdx) (s : State),
     s.takesFrames = true → ForNode readPointBody rq n p → (s.node n).state ≠ .absent →
     (s.point n p).width.isSome = true →
     (s.claimOf rq.originator n p = none →
       exec (.unclaim rq) s = .next (answer s (replyTo rq .unclaim .noClaim) s)) ∧
     (∀ c : Claim, s.claimOf rq.originator n p = some c → c.releasing = true →
       exec (.unclaim rq) s = .next (answer s (replyTo rq .unclaim .busy) s)) ∧
     (∀ c : Claim, s.claimOf rq.originator n p = some c → c.releasing = false →
       exec (.unclaim rq) s = .next (answer s
         (replyTo rq .unclaim .ok { unset := c.value.isNone }
           ((if c.state = .intact then 0x00 else 0x01) ::
             c.value.elim [] wordBytes))
         { s with claims := s.claims.filter fun d => !(d.node == n && d.point == p) })))

/-- R107, R6: a value-setting event writes the active value, keeps the rest of the point, and breaks an INTACT claim
on the point with a CLAIM_BROKEN record; a BROKEN claim queues nothing; and nothing else changes. -/
def Obligations.ValueSettingEventBreaksTheClaim : Prop :=
  ∀ (n : NodeIdx) (p : PointIdx) (v : Word) (cause : BreakCause) (s : State),
    ((s.setActive n p v cause).point n p = { s.point n p with active := some v }) ∧
    (∀ (m : NodeIdx) (q : PointIdx), ¬(m = n ∧ q = p) →
      (s.setActive n p v cause).point m q = s.point m q) ∧
    (∀ c : Claim, s.claimOn n p = some c → c.state = .intact →
      (s.setActive n p v cause).claims = s.claims.map (fun d =>
        if d.node = n ∧ d.point = p then { d with state := .broken } else d) ∧
      (s.exq.queue.length < 32 → (s.setActive n p v cause).exq.queue = s.exq.queue ++
        [{ body := .claimBroken n p c.originator cause, stamp := s.rs.intervalCount }]) ∧
      (s.setActive n p v cause).exq = (s.offer (.claimBroken n p c.originator cause)).exq ∧
      (s.setActive n p v cause).counters = (s.offer (.claimBroken n p c.originator cause)).counters) ∧
    ((s.claimOn n p = none ∨ ∃ c : Claim, s.claimOn n p = some c ∧ c.state = .broken) →
      (s.setActive n p v cause).claims = s.claims ∧ (s.setActive n p v cause).exq = s.exq ∧
      (s.setActive n p v cause).counters = s.counters) ∧
    (∀ m : NodeIdx, (s.setActive n p v cause).node m =
      { s.node m with points := ((s.setActive n p v cause).node m).points }) ∧
    (let t := s.setActive n p v cause
     t = { s with nodes := t.nodes, claims := t.claims, exq := t.exq, counters := t.counters })

/-! ## Stages and commits -/

/-- R119: a stage replaced leaves the others and all else as they were; the pool's free count.

R120, R121: a STAGE for declared points of a node that is not ABSENT, its values in range, in any mode:
STAGE_BUSY, STAGE_FULL, EXHAUSTED, or taken whole.

R73, R95, R98, R100, R120: a STAGE with a value above its point's width. POTENT: refused OVERRANGE, counted and
recorded with the first offending point, whatever the stage's state. IMPOTENT: STAGE_BUSY, STAGE_FULL and
EXHAUSTED make no pass; else the stage takes the items with their low bits, the pass is made, and the response
carries OVERRANGE. -/
def Obligations.StageIsDecided : Prop :=
  (∀ (o : Originator) (g : Stage) (s : State),
     (∀ o' : Originator, (s.setStage o g).stage o' = if o' = o then g else s.stage o') ∧
     s.setStage o g = { s with stages := (s.setStage o g).stages } ∧
     s.poolFree = 192 - ((s.stage 0).entries.length + (s.stage 1).entries.length + (s.stage 2).entries.length +
       (s.stage 3).entries.length)) ∧
  (∀ (rq : Request) (n : NodeIdx) (items : List Item) (s : State),
     s.takesFrames = true → ForNode readItemsBody rq n items → (s.node n).state ≠ .absent →
     (∀ it ∈ items, (s.point n it.point).width.isSome = true) → Fits s n items →
     let x := s.count .stageExhausted
     let short : State := { x with exq := { x.exq with flags := x.exq.flags ||| 8#5 } }
     let g := s.stage rq.originator
     let fresh := items.filter fun it => !(g.entries.any fun e => e.node == n && e.point == it.point)
     let es := (g.entries.map fun e =>
         match items.find? fun it => e.node == n && e.point == it.point with
         | some it => { e with value := it.value }
         | none => e) ++
       fresh.map fun it => { node := n, point := it.point, value := it.value }
     (g.state = .queued ∨ g.state = .committing →
       exec (.stage rq) s = .next (answer s (replyTo rq .stage .stageBusy) s)) ∧
     (g.state = .closed ∨ g.state = .opened → 64 < g.entries.length + fresh.length →
       exec (.stage rq) s = .next
         (answer s (replyTo rq .stage .stageFull {} [byteOf g.entries.length]) s)) ∧
     (g.state = .closed ∨ g.state = .opened → g.entries.length + fresh.length ≤ 64 →
       s.poolFree < fresh.length →
       exec (.stage rq) s = .next (answer s (replyTo rq .stage .exhausted {} [byteOf s.poolFree])
         short)) ∧
     (g.state = .closed ∨ g.state = .opened → g.entries.length + fresh.length ≤ 64 →
       fresh.length ≤ s.poolFree →
       exec (.stage rq) s = .next (answer s
         (replyTo rq .stage .ok {} [byteOf es.length, byteOf (items.length - fresh.length)])
         (s.setStage rq.originator
           { g with state := .opened, entries := es, life := some s.params.stageTimeout })))) ∧
  (∀ (rq : Request) (n : NodeIdx) (items : List Item) (it : Item) (s : State),
     s.takesFrames = true → ForNode readItemsBody rq n items → (s.node n).state ≠ .absent →
     (∀ it ∈ items, (s.point n it.point).width.isSome = true) →
     items.find? (itemExceeds (s.node n)) = some it →
     let x := s.count .stageExhausted
     let short : State := { x with exq := { x.exq with flags := x.exq.flags ||| 8#5 } }
     let g := s.stage rq.originator
     let cut := items.map fun i =>
       { i with value := BitVec.ofNat 16 (i.value.toNat % 2 ^ ((s.point n i.point).width.getD 16)) }
     let fresh := cut.filter fun it => !(g.entries.any fun e => e.node == n && e.point == it.point)
     let es := (g.entries.map fun e =>
         match cut.find? fun it => e.node == n && e.point == it.point with
         | some it => { e with value := it.value }
         | none => e) ++
       fresh.map fun it => { node := n, point := it.point, value := it.value }
     (s.params.overrangePotency = .potent →
       exec (.stage rq) s = .next (answer s (replyTo rq .stage .overrange)
         (s.potentRefusal rq.originator rq.tag .stage n it.point .overrange))) ∧
     (s.params.overrangePotency = .impotent →
       (g.state = .queued ∨ g.state = .committing →
         exec (.stage rq) s = .next (answer s (replyTo rq .stage .stageBusy) s)) ∧
       (g.state = .closed ∨ g.state = .opened →
         (64 < g.entries.length + fresh.length →
           exec (.stage rq) s = .next
             (answer s (replyTo rq .stage .stageFull {} [byteOf g.entries.length]) s)) ∧
         (g.entries.length + fresh.length ≤ 64 → s.poolFree < fresh.length →
           exec (.stage rq) s = .next (answer s (replyTo rq .stage .exhausted {} [byteOf s.poolFree])
             short)) ∧
         (g.entries.length + fresh.length ≤ 64 → fresh.length ≤ s.poolFree →
           exec (.stage rq) s = .next (answer s
             (replyTo rq .stage .ok { passed := { overrange := true } }
               [byteOf es.length, byteOf (items.length - fresh.length)])
             (State.impotentPass (s.setStage rq.originator
               { g with state := .opened, entries := es, life := some s.params.stageTimeout })
               .overrange))))))

/-- R125, R129: a COMMIT. OFFLINE outside RUN; EMPTY and STAGE_BUSY by the stage's state; an OPEN stage is QUEUED
with the COMMIT's tag, its response deferred, and the CE takes it at once when it is idle. -/
def Obligations.CommitIsDecided : Prop :=
  ∀ (rq : Request) (s : State), s.takesFrames = true → ForPart readEmptyBody rq () →
    let g := s.stage rq.originator
    (s.mode ≠ .run → exec (.commit rq) s = .next (answer s (replyTo rq .commit .offline) s)) ∧
    (s.mode = .run → g.state = .closed →
      exec (.commit rq) s = .next (answer s (replyTo rq .commit .empty) s)) ∧
    (s.mode = .run → g.state = .queued ∨ g.state = .committing →
      exec (.commit rq) s = .next (answer s (replyTo rq .commit .stageBusy) s)) ∧
    (s.mode = .run → g.state = .opened →
      exec (.commit rq) s = .next (finish s (State.takeCommit
        { s.setStage rq.originator { g with state := .queued, request := some rq.tag } with
          ce := { s.ce with queue := s.ce.queue ++ [rq.originator] } })))

/-- R129: the CE takes the head of its queue when no commit is in flight and no CLEAR is owed: the stage is
COMMITTING with the next tag, which advances from 255 to 1, and LOADING starts at the first node of the order of
first entries. Otherwise nothing happens (assumption log 6). The taking is the same wherever another statement
names it (`takeCommit`). -/
def Obligations.CommitIsTaken : Prop :=
  ∀ s : State,
    (s.resetLow = false → exec .commitTaken s = .next (finish s s.takeCommit)) ∧
    (∀ (o : Originator) (rest : List Originator), s.ce.commit = none → s.ce.clearOwed = false →
      s.ce.queue = o :: rest →
      s.takeCommit =
        { s.setStage o { s.stage o with state := .committing, tag := some s.ce.nextTag } with
          ce := { s.ce with
            queue := rest
            commit := some
              { originator := o, phase := .loading,
                order := (((s.stage o).entries.map StageEntry.node).reverse.dedup).reverse,
                position := 0, loaded := [] }
            nextTag := if s.ce.nextTag = 255 then 1 else s.ce.nextTag + 1 } }) ∧
    (s.ce.commit.isSome = true ∨ s.ce.clearOwed = true ∨ s.ce.queue = [] → s.takeCommit = s)

/-- R124: a DISCARD, in any mode, decided by the state of the sender's stage. -/
def Obligations.DiscardIsDecided : Prop :=
  ∀ (rq : Request) (s : State), s.takesFrames = true → ForPart readEmptyBody rq () →
    let o := rq.originator
    let g := s.stage o
    let freed := replyTo rq .discard .ok {} [byteOf g.entries.length]
    (g.state = .closed →
      exec (.discard rq) s = .next (answer s (replyTo rq .discard .ok {} [0x00]) s)) ∧
    (g.state = .opened → exec (.discard rq) s = .next (answer s freed (s.setStage o {}))) ∧
    (∀ tag : Byte, g.state = .queued → g.request = some tag →
      let s1 := s.respond { originator := o, tag := tag, kind := 0x10, status := .aborted }
      exec (.discard rq) s = .next (answer s freed
        ({ s1 with ce := { s1.ce with queue := s1.ce.queue.filter (· ≠ o) } }.setStage o {}))) ∧
    (g.state = .committing →
      exec (.discard rq) s = .next (answer s (replyTo rq .discard .stageBusy) s))

/-! ## Node management -/

/-- R1, R6: a node entry replaced leaves the others and all else as they were; the states that are in service; and a
point of an entry.

R10, R11: a CONFIGURE NODE declares an ABSENT node's points and parks it, and is refused NODE_STATE for any
other.

R12, R14: a REMOVE NODE returns a PARKED node that is not in use to its reset values; NODE_STATE and IN_USE
otherwise.

R12: the five conditions that make a node in use. -/
def Obligations.NodesConfiguredAndRemoved : Prop :=
  ((∀ (n : NodeIdx) (e : NodeEntry) (s : State),
     (∀ m : NodeIdx, (s.setNode n e).node m = if m = n then e else s.node m) ∧
     s.setNode n e = { s with nodes := (s.setNode n e).nodes }) ∧
   (∀ st : NodeState, st.inService = true ↔ st = .live ∨ st = .lapsed ∨ st = .silent) ∧
   ∀ (n : NodeIdx) (p : PointIdx) (s : State), s.point n p = (s.node n).points[p]) ∧
  (∀ (rq : Request) (n : NodeIdx) (ds : List Decl) (s : State), Managed readConfigureBody rq (n, ds) s →
     ((s.node n).state ≠ .absent →
       exec (.configureNode rq) s = .next
         (answer s (replyTo rq .configureNode .nodeState {} [(s.node n).state.code]) s)) ∧
     ((s.node n).state = .absent → ∃ e : NodeEntry,
       exec (.configureNode rq) s = .next
         (answer s (replyTo rq .configureNode .ok {} [0x01]) (s.setNode n e)) ∧
       e.state = .parked ∧ e.cls = .tight ∧ e.debt = 0 ∧ e.alternation = false ∧ e.silence = 0 ∧
       e.probe = 0 ∧
       (∀ d ∈ ds, e.point d.point =
         { width := some d.width, held := d.held, active := none, pending := none }) ∧
       (∀ p : PointIdx, (∀ d ∈ ds, d.point ≠ p) →
         e.point p = { width := none, held := false, active := none, pending := none }))) ∧
  (∀ (rq : Request) (n : NodeIdx) (s : State), Managed readNodeBody rq n s →
     ((s.node n).state ≠ .parked →
       exec (.removeNode rq) s = .next
         (answer s (replyTo rq .removeNode .nodeState {} [(s.node n).state.code]) s)) ∧
     ((s.node n).state = .parked → s.inUse n = true →
       exec (.removeNode rq) s = .next (answer s (replyTo rq .removeNode .inUse {} [0x01]) s)) ∧
     ((s.node n).state = .parked → s.inUse n = false →
       exec (.removeNode rq) s = .next
         (answer s (replyTo rq .removeNode .ok {} [0x00]) (s.setNode n {})))) ∧
  (∀ (n : NodeIdx) (s : State),
     s.inUse n = true ↔
       (∃ c ∈ s.claims, c.node = n) ∨ (∃ o : Originator, ∃ e ∈ (s.stage o).entries, e.node = n) ∨
       (∃ e ∈ s.pou.forward, e.node = n) ∨
       (∃ t : UniTxn, s.dbc.txn = some (.uni t) ∧ t.node = n) ∨
       ∃ c : Commit, s.ce.commit = some c ∧ n ∈ c.order)

/-- R15, R17: PARK NODE and UNPARK NODE by the state of the entry. -/
def Obligations.ParkAndUnpark : Prop :=
  ∀ (rq : Request) (n : NodeIdx) (s : State), Managed readNodeBody rq n s →
    let e := s.node n
    (e.state = .absent →
      exec (.parkNode rq) s = .next (answer s (replyTo rq .parkNode .nodeState {} [0x00]) s)) ∧
    (e.state = .parked →
      exec (.parkNode rq) s = .next (answer s (replyTo rq .parkNode .ok {} [0x01]) s)) ∧
    (e.state.inService = true →
      exec (.parkNode rq) s = .next (finish s (State.respond (replyTo rq .parkNode .ok {} [0x01])
        (s.setNode n { e with state := .parked, debt := 0, silence := 0, alternation := false,
                              probe := 0 })))) ∧
    (e.state = .parked →
      exec (.unparkNode rq) s = .next (finish s (State.respond (replyTo rq .unparkNode .ok {} [0x02])
        (s.setNode n { e with state := .live, debt := s.params.wakeDebits, silence := 0,
                              alternation := false, probe := 0 })))) ∧
    (e.state ≠ .parked →
      exec (.unparkNode rq) s = .next
        (answer s (replyTo rq .unparkNode .nodeState {} [e.state.code]) s))

/-! ## Readings and parameters -/

/-- R171, R172: READ PARAMETERS and NODE STATUS answer OK with the bodies of Table 11-4 and change no state but the
transmit queue's.

R173, R174, R101, Table 11-5: a READ STATUS reports the segment in 32 bytes; with its clear option the impotent
summary, and nothing else, is emptied after it is read. -/
def Obligations.StatusReadings : Prop :=
  (∀ (rq : Request) (n : NodeIdx) (s : State),
     (Managed readEmptyBody rq () s →
       exec (.readParameters rq) s = .next (answer s (replyTo rq .readParameters .ok {}
         (ParamId.all.flatMap fun i => [i.code, s.params.get i])) s)) ∧
     (Managed readNodeBody rq n s →
       exec (.nodeStatus rq) s = .next (answer s (replyTo rq .nodeStatus .ok {}
         ([byteOf (n.val + 1), (s.node n).state.code, (s.node n).cls.code, byteOf (s.node n).debt,
           if (s.node n).alternation then 0x01 else 0x00, byteOf (s.node n).silence,
           byteOf (s.node n).probe] ++
         (List.finRange 16).flatMap fun p => (s.point n p).bytes)) s))) ∧
  (∀ (rq : Request) (clear : Bool) (s : State), Managed readOptionBody rq clear s →
     let stage : Originator → List Byte := fun o =>
       [match (s.stage o).state with
         | .closed => 0x00
         | .opened => 0x01
         | .queued => 0x02
         | .committing => 0x03,
        byteOf (s.stage o).entries.length]
     let queued : Nat → Byte := fun i =>
       match s.ce.queue[i]? with
       | some o => byteOf o.val
       | none => 0xFF
     let body : List Byte :=
       [match s.mode with
         | .run => 0x01
         | .draining => 0x02
         | .halted => 0x03,
        byteOf s.pou.forward.length, if s.pou.inHand.isSome then 0x01 else 0x00,
        byteOf s.ce.queue.length, queued 0, queued 1, queued 2, queued 3] ++
       stage 0 ++ stage 1 ++ stage 2 ++ stage 3 ++
       [byteOf (192 - ((s.stage 0).entries.length + (s.stage 1).entries.length +
          (s.stage 2).entries.length + (s.stage 3).entries.length)),
        if s.ce.clearOwed then 0x01 else 0x00, s.ce.nextTag, byteOf s.claims.length,
        byteOf s.exq.queue.length,
        (if s.pou.summary.overrange then 0x01 else 0x00) ||| (if s.pou.summary.conflict then 0x02 else 0x00) |||
          (if s.pou.summary.broken then 0x04 else 0x00)] ++
       (match s.pou.lastRefusal with
         | none => [0x00, 0x00, 0x00, 0x00, 0x00, 0x00, 0x00]
         | some r =>
           [0x01, byteOf r.originator.val, r.tag, r.kind.code, byteOf (r.node.val + 1), byteOf r.point.val,
            match r.condition with
            | .overrange => 0x08
            | .conflict => 0x0A
            | .broken => 0x0E]) ++
       [byteOf (s.rs.intervalCount.toNat / 256), byteOf s.rs.intervalCount.toNat,
        if s.dbc.txn.isSome then 0x01 else 0x00]
     body.length = 32 ∧
     exec (.readStatus rq) s = .next (answer s (replyTo rq .readStatus .ok {} body)
       (if clear then { s with pou := { s.pou with summary := {} } } else s)))

/-- R145: a READ EXCEPTIONS of k removes the k oldest records, or all when fewer are held, and carries them with the
number left; the flags keep their values.

R147, R148, R151: READ NOTICES reports flags and mask and clears the flags; SET NOTICE MASK replaces the mask;
READ COUNTERS reports the eleven counters and with its clear option sets them to 0. What a lost response counts
and sets comes after the clear (assumption log 9). -/
def Obligations.EventReadings : Prop :=
  (∀ (rq : Request) (k : Nat) (s : State), Managed readNumberBody rq k s →
     exec (.readExceptions rq) s = .next (answer s
       (replyTo rq .readExceptions .ok {}
         (byteOf (s.exq.queue.length - k) :: byteOf (min k s.exq.queue.length) ::
           (s.exq.queue.take k).flatMap ExcRecord.bytes))
       { s with exq := { s.exq with queue := s.exq.queue.drop k } })) ∧
  (∀ (rq : Request) (s : State),
     let counters : List Word :=
       [s.counters.trunkCrcErrors, s.counters.trunkMalformed, s.counters.responsesLost, s.counters.requestsBusy,
        s.counters.potentRefusals, s.counters.impotentWrites, s.counters.dropNoReply, s.counters.dropReplyFaults,
        s.counters.renewalsAccepted, s.counters.exceptionsLost, s.counters.stageExhausted]
     (Managed readEmptyBody rq () s →
       exec (.readNotices rq) s = .next (answer s
         (replyTo rq .readNotices .ok {} [s.exq.flags.setWidth 8, s.exq.mask.setWidth 8])
         { s with exq := { s.exq with flags := 0 } })) ∧
     (∀ m : BitVec 5, Managed readMaskBody rq m s →
       exec (.setNoticeMask rq) s = .next (answer s (replyTo rq .setNoticeMask .ok)
         { s with exq := { s.exq with mask := m } })) ∧
     (∀ clear : Bool, Managed readOptionBody rq clear s →
       exec (.readCounters rq) s = .next (answer s
         (replyTo rq .readCounters .ok {} (counters.flatMap wordBytes))
         { s with counters := if clear then {} else s.counters })))

/-- R168: the range of each parameter, and the five halted-only parameters.

R169: the three steps that refuse a SET PARAMETERS, in their order; a refused one changes no parameter.

R169, R170, R38: a SET PARAMETERS that passes its checks writes every item and is answered OK; a changed
arbitration mode returns both lists to their reset orders; with the bus FREE the arbiter decides when the
arbitration mode, the commit pace or the elapsing of the idle window changed.

R168, R170: after all items are written each parameter named reads as its item, and each other as before. -/
def Obligations.SetParametersIsDecided : Prop :=
  ((∀ (i : ParamId) (v : Byte), i.inRange v = true ↔
     match i with
     | .renewalInterval | .claimTimeout | .stageTimeout => 1 ≤ v.toNat ∧ v.toNat ≤ 255
     | .stagger | .commitPace | .overrangePotency | .conflictPotency | .brokenPotency => v = 0x00 ∨ v = 0x01
     | .highWatermark => 1 ≤ v.toNat ∧ v.toNat ≤ 7
     | .panicWatermark => 2 ≤ v.toNat ∧ v.toNat ≤ 8
     | .wakeDebits => 1 ≤ v.toNat ∧ v.toNat ≤ 3
     | .replyWindowCode => v.toNat ≤ 7
     | .idleWindow => v.toNat ≤ 255
     | .arbMode => v = 0x00 ∨ v = 0x01 ∨ v = 0x02
     | .noticeOriginator => v.toNat ≤ 3
     | .managerSet => v.toNat ≤ 15) ∧
   ∀ i : ParamId, i.haltedOnly = true ↔
     i ∈ [ParamId.renewalInterval, .stagger, .highWatermark, .panicWatermark, .wakeDebits]) ∧
  (∀ (rq : Request) (items : List (ParamId × Byte)) (s : State), Managed readParamsBody rq items s →
     let p := s.params.setAll items
     (∀ i, items.find? (fun i => !i.1.inRange i.2) = some i →
       exec (.setParameters rq) s = .next
         (answer s (replyTo rq .setParameters .badParam {} [i.1.code]) s)) ∧
     ((∀ i ∈ items, i.1.inRange i.2 = true) → p.panicWatermark ≤ p.highWatermark →
       exec (.setParameters rq) s = .next (answer s (replyTo rq .setParameters .badParam {} [0x04]) s)) ∧
     (∀ i, (∀ i ∈ items, i.1.inRange i.2 = true) → p.highWatermark < p.panicWatermark →
       s.mode ≠ .halted → items.find? (fun i => i.1.haltedOnly) = some i →
       exec (.setParameters rq) s = .next (answer s (replyTo rq .setParameters .mode {} [i.1.code]) s))) ∧
  (∀ (rq : Request) (items : List (ParamId × Byte)) (s : State), Managed readParamsBody rq items s →
     (∀ i ∈ items, i.1.inRange i.2 = true) →
     (s.params.setAll items).highWatermark < (s.params.setAll items).panicWatermark →
     (s.mode = .halted ∨ ∀ i ∈ items, i.1.haltedOnly = false) →
     let t : State := { s with
       params := s.params.setAll items
       dbc := if (s.params.setAll items).arbMode = s.params.arbMode then s.dbc
         else { s.dbc with rotation := [.fwd, .cmt, .rnw], lead := [.fwd, .rnw] } }
     let u := answer s (replyTo rq .setParameters .ok) t
     exec (.setParameters rq) s = .next
       (if s.dbc.txn = none ∧ ((s.params.setAll items).arbMode ≠ s.params.arbMode ∨
           (s.params.setAll items).commitPace ≠ s.params.commitPace ∨
           (s.idleElapsed = false ∧ t.idleElapsed = true)) then u.arbitrate else u)) ∧
  (∀ (items : List (ParamId × Byte)) (p : Params), (items.map Prod.fst).Nodup →
     (∀ i ∈ items, i.1.inRange i.2 = true) →
     (∀ i ∈ items, (p.setAll items).get i.1 = i.2) ∧
     ∀ j : ParamId, (∀ i ∈ items, i.1 ≠ j) → (p.setAll items).get j = p.get j)

/-! ## Modes, FLUSH and FULL RESET -/

/-- R154, R155, R156: a SET MODE by the requested mode and the present one. -/
def Obligations.SetModeIsDecided : Prop :=
  ∀ (rq : Request) (s : State),
    (Managed readModeBody rq .run s →
      (s.mode = .run → exec (.setMode rq) s = .next (answer s (replyTo rq .setMode .ok {} [0x01]) s)) ∧
      (s.mode = .draining →
        exec (.setMode rq) s = .next (answer s (replyTo rq .setMode .mode {} [0x02]) s)) ∧
      (s.mode = .halted → exec (.setMode rq) s = .next (State.arbitrate
        (answer s (replyTo rq .setMode .ok {} [0x01])
          { s with
            mode := .run
            ce := { s.ce with clearOwed := true }
            nodes := s.nodes.map fun e =>
              if e.state = .live ∨ e.state = .lapsed then
                { e with debt := max e.debt s.params.wakeDebits }
              else e })))) ∧
    (Managed readModeBody rq .drain s →
      (s.mode = .halted →
        exec (.setMode rq) s = .next (answer s (replyTo rq .setMode .ok {} [0x03]) s)) ∧
      (s.mode = .draining →
        exec (.setMode rq) s = .next (answer s (replyTo rq .setMode .ok {} [0x02]) s)) ∧
      (s.mode = .run →
        let t := s.enterDraining.endDrain
        exec (.setMode rq) s = .next (finish s (t.respond (replyTo rq .setMode .ok {} [t.mode.code])))))

/-- R156, R77, R139, R153: what DRAINING entry leaves: the mode, both queues empty, every queued stage OPEN with its
entries and a reloaded life and no commit request, the other stages, the nodes, the claims, the commit in flight,
the CLEAR owed, the transaction in flight and the request in hand as they were.

R156: the responses of DRAINING entry, when all find room: an OFFLINE for every forward-queue entry, head first,
each with its conditions let through, then one for every queued COMMIT, head first. -/
def Obligations.DrainingEntry : Prop :=
  (∀ s : State, s.ce.queue.Nodup →
     let t := s.enterDraining
     t.mode = .draining ∧ t.pou.forward = [] ∧ t.ce.queue = [] ∧
     (∀ o : Originator, t.stage o = if o ∈ s.ce.queue then
       { s.stage o with state := .opened, life := some s.params.stageTimeout, request := none }
       else s.stage o) ∧
     t.nodes = s.nodes ∧ t.claims = s.claims ∧ t.ce.commit = s.ce.commit ∧
     t.ce.clearOwed = s.ce.clearOwed ∧ t.dbc = s.dbc ∧ t.pou.inHand = s.pou.inHand) ∧
  (∀ s : State, s.tp.closing = false →
     s.tp.queue.length + s.pou.forward.length + s.ce.queue.length ≤ 32 → s.ce.queue.Nodup →
     (∀ o ∈ s.ce.queue, (s.stage o).request.isSome = true) →
     s.enterDraining.tp.queue = s.tp.queue ++
       s.pou.forward.map (fun e => .response
         { originator := e.originator, tag := e.tag, kind := e.op.kind.code, status := .offline,
           flags := { passed := e.passed } }) ++
       s.ce.queue.map (fun o => .response
         { originator := o, tag := ((s.stage o).request).getD 0, kind := 0x10, status := .offline }))

/-- R161, R163: a FLUSH: its five steps, then the mode, then its OK. In RUN and in DRAINING the mode is DRAINING, and
HALTED with the flag set when no CLEAR is owed and no transaction is in flight; in HALTED the mode and the flag
stay as they are.

R161, R162, R140, R119: what the first five steps of a FLUSH leave. The forward queue, the commit queue, the
commit in flight, every stage and every claim are gone; of the Node Table only the pending values of the ended
commit's points change; the work removed is answered ABORTED in the order of the steps, each response as far as
the transmit queue has room, the lost ones counted; and everything else is as it was. -/
def Obligations.FlushEmptiesTheWork : Prop :=
  (∀ (rq : Request) (s : State), Managed readEmptyBody rq () s →
     let t := s.flushWork
     let u : State :=
       if s.mode = .halted then t
       else if s.ce.clearOwed = false ∧ s.dbc.txn = none then
         { t with mode := .halted, exq := { t.exq with flags := t.exq.flags ||| 16#5 } }
       else { t with mode := .draining }
     exec (.flush rq) s = .next (finish s (u.respond (replyTo rq .flush .ok)))) ∧
  (∀ s : State, StageStoreLegal s → s.tp.closing = false →
     let t := s.flushWork
     let aborted : Originator → TrunkFrame := fun o =>
       .response { originator := o, tag := ((s.stage o).request).getD 0, kind := 0x10, status := .aborted }
     let answers : List TrunkFrame :=
       s.pou.forward.map (fun e => .response
         { originator := e.originator, tag := e.tag, kind := e.op.kind.code, status := .aborted,
           flags := { passed := e.passed } }) ++
       (s.ce.commit.map fun c => aborted c.originator).toList ++ s.ce.queue.map aborted
     let lost := answers.length - (32 - s.tp.queue.length)
     t.tp.queue = s.tp.queue ++ answers.take (32 - s.tp.queue.length) ∧ t.tp.closing = false ∧
     t.tp.pause = (s.tp.pause || decide (s.tp.queue.length < 24 ∧ 24 ≤ t.tp.queue.length)) ∧
     (∀ c : Counter, t.counters.get c =
       if c = .responsesLost then s.counters.get c + BitVec.ofNat 16 lost else s.counters.get c) ∧
     t.exq = { s.exq with flags :=
       if 65536 ≤ s.counters.responsesLost.toNat + lost then s.exq.flags ||| 4#5 else s.exq.flags } ∧
     (∀ (n : NodeIdx) (p : PointIdx), t.point n p =
       if ∃ c : Commit, s.ce.commit = some c ∧
           ∃ e ∈ (s.stage c.originator).entries, e.node = n ∧ e.point = p
       then { s.point n p with pending := none } else s.point n p) ∧
     (∀ n : NodeIdx, t.node n = { s.node n with points := (t.node n).points }) ∧
     t = { s with
       pou := { s.pou with forward := [] }
       claims := []
       ce := { s.ce with queue := [], commit := none }
       stages := Vector.replicate 4
         { state := .closed, entries := [], life := none, request := none, tag := none }
       nodes := t.nodes, tp := t.tp, counters := t.counters, exq := t.exq })

/-- R158: the drain's end, as the event's own: in DRAINING with no commit in flight, no CLEAR owed and the bus FREE
the mode becomes HALTED and the HALTED flag is set. With one of the three open nothing changes (assumption log
6). -/
def Obligations.DrainEnds : Prop :=
  ∀ s : State, s.resetLow = false →
    (s.mode = .draining → s.ce.commit = none → s.ce.clearOwed = false → s.dbc.txn = none →
      exec .drainEnd s = .next (closeEvent s
        { s with mode := .halted, exq := { s.exq with flags := s.exq.flags ||| 16#5 } })) ∧
    (s.mode ≠ .draining ∨ s.ce.commit.isSome = true ∨ s.ce.clearOwed = true ∨
        s.dbc.txn.isSome = true →
      exec .drainEnd s = .next s)

/-- R84, R164: a FULL RESET with room in the transmit queue: its OK joins and the TP becomes CLOSING; with the queue
full the full reset is taken at once. -/
def Obligations.FullResetRequestClosesTheTrunkPort : Prop :=
  ∀ (rq : Request) (s : State), Managed readEmptyBody rq () s →
    (s.tp.queue.length < 32 → exec (.fullReset rq) s = .next { s with tp :=
      { queue := s.tp.queue ++ [.response (replyTo rq .fullReset .ok)]
        pause := s.tp.pause || decide (s.tp.queue.length = 23)
        closing := true } }) ∧
    (32 ≤ s.tp.queue.length → exec (.fullReset rq) s = .next s.fullReset)

/-! ## The arbiter and the grants -/

/-- R36, R37, R39: the winner of a decision. None with a transaction in flight or in HALTED; RNW at PANIC first; then
the arbitration mode's choice among FWD, CMT (unless YIELD holds it back) and RNW at HIGH; then RNW at LOW after
the idle window. -/
def Obligations.ArbiterWinner : Prop :=
  ∀ s : State,
    (s.dbc.txn.isSome = true ∨ s.mode = .halted → s.winner = none) ∧
    (s.dbc.txn = none → s.mode ≠ .halted → s.rnwAt .panic = true → s.winner = some (.rnw, .panic)) ∧
    (s.dbc.txn = none → s.mode ≠ .halted → s.rnwAt .panic = false →
      (∀ r, s.choose = some r → s.winner = some (r, .shared)) ∧
      (s.choose = none → s.rnwAt .low = true → s.params.idleWindow ≤ s.dbc.idleTimer →
        s.winner = some (.rnw, .low)) ∧
      (s.choose = none → (s.rnwAt .low = false ∨ s.dbc.idleTimer < s.params.idleWindow) →
        s.winner = none)) ∧
    (s.params.arbMode = .fixed → s.choose = [Requester.cmt, .fwd, .rnw].find? s.eligible) ∧
    (s.params.arbMode = .rotate → s.choose = s.dbc.rotation.find? s.eligible) ∧
    (s.params.arbMode = .lead → s.choose = (.cmt :: s.dbc.lead).find? s.eligible) ∧
    (s.eligible .fwd = true ↔ s.pou.forward ≠ []) ∧
    (s.eligible .cmt = true ↔ s.cmtWork.isSome = true ∧
      ¬(s.params.commitPace = .yield ∧ s.dbc.yieldMarker = true ∧
        (s.pou.forward ≠ [] ∨ s.rnwAt .high = true))) ∧
    (s.eligible .rnw = true ↔ s.rnwAt .high = true) ∧
    ∀ l : Level, s.rnwAt l = true ↔ ∃ o : Offer, s.candidate = some o ∧ o.level = l

/-- R38, R39: what a grant does to the lists and the marker, used or unused. -/
def Obligations.GrantMovesTheListInUse : Prop :=
  ∀ (r : Requester) (st : GrantStep) (s : State),
    s.bookGrant r st = { s with dbc := { s.dbc with
      rotation := if st = .shared ∧ s.params.arbMode = .rotate
        then s.dbc.rotation.filter (· != r) ++ s.dbc.rotation.filter (· == r) else s.dbc.rotation
      lead := if st = .shared ∧ s.params.arbMode = .lead
        then s.dbc.lead.filter (· != r) ++ s.dbc.lead.filter (· == r) else s.dbc.lead
      yieldMarker := r == .cmt } }

/-- R36, R40: a decision with no winner changes nothing; a used grant ends it; an unused grant brings the next
decision at once, under a bound that DecisionsRunToTheirEnd shows is enough (assumption log 7).

The decision of the arbiter is the same wherever another statement names it (`arbitrate`, `decisions`).

R36, R38, R39, R158, R149: one decision moves the list in use and the marker, grants its winner, ends the drain
if the grant brings that, and generates the NOTICE of its event; it is used as its grant is.

R33, R35: the idle timer reaching the idle window while the bus is FREE brings a decision. The command moves no
other timer (assumption log 1). -/
def Obligations.ArbiterDecisionIsTaken : Prop :=
  ((∀ s : State, s.resetLow = false →
     exec .arbiterDecision s = .next s.arbitrate ∧
     (s.winner = none → exec .arbiterDecision s = .next s) ∧
     (∀ (r : Requester) (st : GrantStep), s.winner = some (r, st) →
       (s.decideGrant r st).2 = true → exec .arbiterDecision s = .next (s.decideGrant r st).1) ∧
     (∀ (r : Requester) (st : GrantStep), s.winner = some (r, st) → (s.decideGrant r st).2 = false →
       exec .arbiterDecision s = .next
         ((s.decideGrant r st).1.decisions (s.pou.forward.length + s.ce.queue.length + 1)))) ∧
   (∀ (k : Nat) (s : State),
     s.decisions 0 = s ∧ (s.winner = none → s.decisions (k + 1) = s) ∧
     ∀ (r : Requester) (st : GrantStep), s.winner = some (r, st) →
       s.decisions (k + 1) = if (s.decideGrant r st).2 = true then (s.decideGrant r st).1
         else (s.decideGrant r st).1.decisions k)) ∧
  (∀ (st : GrantStep) (s : State),
     let ends : State → State := fun g => closeEvent s
       (if g.mode = .draining ∧ g.ce.commit = none ∧ g.ce.clearOwed = false ∧ g.dbc.txn = none
        then { g with mode := .halted, exq := { g.exq with flags := g.exq.flags ||| 16#5 } } else g)
     (let g := grantFwd (s.bookGrant .fwd st); s.decideGrant .fwd st = (ends g.1, g.2)) ∧
     (let g := grantCmt (s.bookGrant .cmt st); s.decideGrant .cmt st = (ends g.1, g.2)) ∧
     (let g := grantRnw (s.bookGrant .rnw st); s.decideGrant .rnw st = (ends g.1, g.2))) ∧
  (∀ s : State, s.resetLow = false → s.dbc.txn = none →
     exec .idleWindowElapsed s = exec .arbiterDecision
       { s with dbc := { s.dbc with idleTimer := max s.dbc.idleTimer s.params.idleWindow } })

/-- R40: the model's bound on a run of decisions is long enough: after a decision event no requester that could be
granted is left. -/
def Obligations.DecisionsRunToTheirEnd : Prop :=
  ∀ s : State, s.arbitrate.winner = none

/-- R52, R50, R26: the grant of a RENEW carries every held point that has an active value, in ascending order, under
the window code in force, and makes the candidate the last-renewed address.

R53: the outcome of a RENEW at the RS: an ACCEPTED one is counted, a REFUSED one queues a RENEW_REFUSED record,
and a node that is no longer in service gets neither. -/
def Obligations.RenewGrantAndOutcome : Prop :=
  (∀ (o : Offer) (s : State), s.candidate = some o →
     grantRnw s =
       ({ s with
           rs := { s.rs with lastRenewed := o.node }
           dbc := { s.dbc with txn := some (.uni
             { node := o.node
               frame := .renew ((List.finRange 16).filterMap fun p =>
                 if (s.point o.node p).held then
                   (s.point o.node p).active.map fun v => { point := p, value := v }
                 else none)
               window := s.params.replyWindowCode
               cond := .transmitting
               windowLeft := 0 }) } }, true)) ∧
  (∀ (n : NodeIdx) (c : HoldClass) (vs : List Word) (s : State),
     ((s.node n).state.inService = true →
       s.renewOutcome n (.accepted c vs) = s.count .renewalsAccepted ∧
       s.renewOutcome n (.refused c) = s.offer (.renewRefused n)) ∧
     s.renewOutcome n .noReply = s ∧
     ((s.node n).state.inService = false → ∀ o : DropOutcome, s.renewOutcome n o = s))

/-- R26, R33: how a transaction starts, under the window code in force, and how the bus becomes FREE.

R78, R79, R86, R96: the grant of a WRITE at the head of the forward queue: refused NODE_STATE; refused CONFLICT
under POTENT with the first pending point recorded; or built into a WRITE of its items, CONFLICT let through
under IMPOTENT. -/
def Obligations.WriteGrant : Prop :=
  (∀ (n : NodeIdx) (f : UniFrame) (g : BroadFrame) (s : State),
     s.startUni n f = { s with dbc := { s.dbc with txn := some (.uni
       { node := n, frame := f, window := s.params.replyWindowCode, cond := .transmitting, windowLeft := 0 }) } } ∧
     s.startBroad g = { s with dbc := { s.dbc with txn := some (.broad g) } } ∧
     s.freeBus = { s with dbc := { s.dbc with txn := none, idleTimer := 0 } }) ∧
  (∀ (e : FwdEntry) (items : List Item) (rest : List FwdEntry) (s : State),
     s.pou.forward = e :: rest → e.op = .write items →
     let t : State := { s with pou := { s.pou with forward := rest } }
     let hit := (items.map Item.point).find? fun p => (s.point e.node p).pending.isSome
     let started : State → FwdEntry → State := fun u d =>
       State.startUni e.node (.write items)
         { u with pou := { u.pou with inHand := some { entry := d, modified := none } } }
     ((s.node e.node).state.inService = false →
       grantFwd s = (t.respond
         { originator := e.originator, tag := e.tag, kind := 0x01, status := .nodeState,
           flags := { passed := e.passed } }, false)) ∧
     ((s.node e.node).state.inService = true → hit = none → grantFwd s = (started t e, true)) ∧
     (∀ p : PointIdx, (s.node e.node).state.inService = true → hit = some p →
       s.params.conflictPotency = .potent →
       grantFwd s = ((t.potentRefusal e.originator e.tag .write e.node p .conflict).respond
         { originator := e.originator, tag := e.tag, kind := 0x01, status := .conflict,
           flags := { passed := e.passed } }, false)) ∧
     (∀ p : PointIdx, (s.node e.node).state.inService = true → hit = some p →
       s.params.conflictPotency = .impotent →
       grantFwd s = (started (t.impotentPass .conflict)
         { e with passed := { e.passed with conflict := true } }, true)))

/-- R78: at a grant the head of the forward queue, of any kind, is refused NODE_STATE when its node is not in
service; R92: a READ meets no other check; R88, R90, R96: a MODIFY is refused UNSET, refused CONFLICT under
POTENT, or built into a WRITE of its new value, which it keeps with whether it differs from the active value. -/
def Obligations.ModifyAndReadGrant : Prop :=
  ∀ (e : FwdEntry) (rest : List FwdEntry) (s : State), s.pou.forward = e :: rest →
    let t : State := { s with pou := { s.pou with forward := rest } }
    let no : Status → CondSet → Response := fun st passed =>
      { originator := e.originator, tag := e.tag, kind := e.op.kind.code, status := st,
        flags := { passed := passed } }
    let started : State → InHand → UniFrame → State := fun u h f =>
      State.startUni e.node f { u with pou := { u.pou with inHand := some h } }
    ((s.node e.node).state.inService = false → grantFwd s = (t.respond (no .nodeState e.passed), false)) ∧
    ((s.node e.node).state.inService = true →
      (∀ pts, e.op = .read pts →
        grantFwd s = (started t { entry := e, modified := none } (.read pts), true)) ∧
      (∀ p o b, e.op = .modify p o b →
        ((s.point e.node p).active = none → grantFwd s = (t.respond (no .unset e.passed), false)) ∧
        (∀ v : Word, (s.point e.node p).active = some v →
          let w := BitOp.apply o b v
          let f : UniFrame := .write [{ point := p, value := w }]
          ((s.point e.node p).pending = none →
            grantFwd s = (started t { entry := e, modified := some (w, w != v) } f, true)) ∧
          ((s.point e.node p).pending.isSome = true → s.params.conflictPotency = .potent →
            grantFwd s = ((t.potentRefusal e.originator e.tag .modify e.node p .conflict).respond
              (no .conflict e.passed), false)) ∧
          ((s.point e.node p).pending.isSome = true → s.params.conflictPotency = .impotent →
            grantFwd s = (started (t.impotentPass .conflict)
              { entry := { e with passed := { e.passed with conflict := true } },
                modified := some (w, w != v) } f, true)))))

/-- R89: the new value of a MODIFY, bit by bit, for a bit index b and a bit i of the value. -/
def Obligations.ModifyOperations : Prop :=
  ∀ (b : Fin 16) (v : Word) (i : Nat),
    ((BitOp.set.apply b v).getLsbD i = (decide (i = b.val) || v.getLsbD i)) ∧
    ((BitOp.clear.apply b v).getLsbD i = (decide (i ≠ b.val) && v.getLsbD i)) ∧
    ((BitOp.toggle.apply b v).getLsbD i = (decide (i = b.val) ^^ v.getLsbD i)) ∧
    ((BitOp.reverse.apply b v).getLsbD i =
      if i ≤ b.val then v.getLsbD (b.val - i) else v.getLsbD i)

/-- R103: the claim record that a point, or a point and an originator, names; and a change of the record of a point.

R110, R97: the grant of a RELEASE at a node in service: NO_CLAIM; BROKEN, which under POTENT removes the record
and under IMPOTENT goes on; CONFLICT, which under POTENT leaves the record as it is and under IMPOTENT goes on;
and else the record is marked releasing and the WRITE of the value is built. -/
def Obligations.ReleaseGrant : Prop :=
  (∀ (o : Originator) (n : NodeIdx) (p : PointIdx) (f : Claim → Claim) (s : State),
     s.claimOn n p = s.claims.find? (fun c => decide (c.node = n ∧ c.point = p)) ∧
     s.claimOf o n p = s.claims.find? (fun c => decide (c.node = n ∧ c.point = p ∧ c.originator = o)) ∧
     s.mapClaim n p f = { s with claims := s.claims.map fun c => if c.node = n ∧ c.point = p then f c else c }) ∧
  (∀ (e : FwdEntry) (it : Item) (rest : List FwdEntry) (s : State),
     s.pou.forward = e :: rest → e.op = .release it → (s.node e.node).state.inService = true →
     let t : State := { s with pou := { s.pou with forward := rest } }
     let no : Status → CondSet → Response := fun st passed =>
       { originator := e.originator, tag := e.tag, kind := 0x04, status := st,
         flags := { passed := passed } }
     let go : State → FwdEntry → State × Bool := fun u d =>
       if (s.point e.node it.point).pending = none then
         let v := u.mapClaim e.node it.point fun c => { c with releasing := true }
         (State.startUni e.node (.write [it])
           { v with pou := { v.pou with inHand := some { entry := d, modified := none } } }, true)
       else
         match s.params.conflictPotency with
         | .potent =>
           ((u.potentRefusal e.originator e.tag .release e.node it.point .conflict).respond
             (no .conflict d.passed), false)
         | .impotent =>
           let v := (u.impotentPass .conflict).mapClaim e.node it.point fun c => { c with releasing := true }
           let d' : FwdEntry := { d with passed := { d.passed with conflict := true } }
           (State.startUni e.node (.write [it])
             { v with pou := { v.pou with inHand := some { entry := d', modified := none } } }, true)
     (s.claimOf e.originator e.node it.point = none →
       grantFwd s = (t.respond (no .noClaim e.passed), false)) ∧
     ∀ c : Claim, s.claimOf e.originator e.node it.point = some c →
       (c.state = .broken → s.params.brokenPotency = .potent →
         grantFwd s = ((State.potentRefusal
           { t with claims := s.claims.filter fun d => !(d.node == e.node && d.point == it.point) }
           e.originator e.tag .release e.node it.point .broken).respond (no .broken e.passed), false)) ∧
       (c.state = .intact → grantFwd s = go t e) ∧
       (c.state = .broken → s.params.brokenPotency = .impotent →
         grantFwd s = go (t.impotentPass .broken)
           { e with passed := { e.passed with broken := true } }))

/-- R127, R128, R133, R134: what the CE presents and what the grant of a broadcast starts; a LOAD is presented for
the node at the commit's position.

R132: a commit that fails is ABANDONING when a node is loaded, and else ends at once.

R132, R134: the status of each cause of a failed commit.

R130, R132: the grant of a LOAD: built for a LIVE or LAPSED node with one item for each of the stage's entries
that name it; for another node the commit fails with cause NODE_STATE and no frame is sent.

R131, R132: the outcome of a LOAD of the commit in flight: ACCEPTED sets the pending values it carried and moves
on; REFUSED and NO_REPLY fail the commit. R140: with no commit in flight it finds nothing to apply to. -/
def Obligations.CommitTransactions : Prop :=
  ((∀ s : State,
     (s.ceBusy = true ↔ (∃ f : BroadFrame, s.dbc.txn = some (.broad f)) ∨
       ∃ (u : UniTxn) (tag : Byte) (items : List Item),
         s.dbc.txn = some (.uni u) ∧ u.frame = .load tag items) ∧
     (s.ceBusy = true → s.cmtWork = none) ∧
     (s.ceBusy = false → s.ce.clearOwed = true →
       s.cmtWork = some .clear ∧ grantCmt s = (s.startBroad (.abandon 0), true)) ∧
     (s.ceBusy = false → s.ce.clearOwed = false → s.ce.commit = none → s.cmtWork = none) ∧
     ∀ (c : Commit) (tag : Byte), s.ceBusy = false → s.ce.clearOwed = false → s.ce.commit = some c →
       (s.stage c.originator).tag = some tag →
       (c.phase = .loading → s.cmtWork = (c.order[c.position]?).map fun n => .load c n tag) ∧
       (c.phase = .taking →
         s.cmtWork = some (.take tag) ∧ grantCmt s = (s.startBroad (.take tag), true)) ∧
       (∀ (n : NodeIdx) (cause : FailCause), c.phase = .abandoning n cause →
         s.cmtWork = some (.abandon tag) ∧ grantCmt s = (s.startBroad (.abandon tag), true))) ∧
   (∀ (c : Commit) (n : NodeIdx) (cause : FailCause) (s : State),
     (c.loaded ≠ [] → s.failCommit c n cause =
       { s with ce := { s.ce with commit := some { c with phase := .abandoning n cause } } }) ∧
     (c.loaded = [] → s.failCommit c n cause =
       (s.dropPending (s.stage c.originator).entries).endCommit c.originator .commitFailed
         [byteOf (n.val + 1), cause.status.code]))) ∧
  (FailCause.noReply.status = .noReply ∧ FailCause.nodeRefused.status = .nodeRefused ∧
     FailCause.nodeState.status = .nodeState) ∧
  (∀ (c : Commit) (n : NodeIdx) (tag : Byte) (s : State), s.cmtWork = some (.load c n tag) →
     ((s.node n).state = .live ∨ (s.node n).state = .lapsed →
       grantCmt s = (s.startUni n (.load tag
         (((s.stage c.originator).entries.filter fun e => e.node = n).map fun e =>
           { point := e.point, value := e.value })), true)) ∧
     ((s.node n).state ≠ .live → (s.node n).state ≠ .lapsed →
       grantCmt s = (s.failCommit c n .nodeState, false))) ∧
  (∀ (n : NodeIdx) (tag : Byte) (items : List Item) (c : Commit) (cls : HoldClass) (s : State),
     (s.ce.commit = none → ∀ o : DropOutcome, s.loadOutcome n tag items o = s) ∧
     (s.ce.commit = some c → c.phase = .loading → (s.stage c.originator).tag = some tag →
       let t := items.foldl (fun (u : State) it =>
         u.setPoint n it.point { u.point n it.point with pending := some it.value }) s
       s.loadOutcome n tag items (.accepted cls []) = { t with ce := { s.ce with commit := some (
         { c with loaded := c.loaded ++ [n], position := c.position + 1,
                  phase := if c.position + 1 < c.order.length then .loading else .taking } : Commit) } } ∧
       s.loadOutcome n tag items (.refused cls) = s.failCommit c n .nodeRefused ∧
       s.loadOutcome n tag items .noReply = s.failCommit c n .noReply))

/-! ## Drop transactions -/

/-- R27: at the end of transmission of a unicast frame the reply window of its code starts: 100 µs to 12.8 ms, in
units of 10 µs.

R30: the reply window expiring while AWAITING is counted and hands NO_REPLY over. -/
def Obligations.ReplyWindow : Prop :=
  (∀ (u : UniTxn) (s : State), s.resetLow = false → s.dbc.txn = some (.uni u) →
     u.cond = .transmitting → u.window ≤ 7 →
     exec .unicastTransmissionEnd s = .next { s with dbc := { s.dbc with txn := some (.uni
       { u with cond := .awaiting
                windowLeft := [10, 20, 40, 80, 160, 320, 640, 1280].getD u.window 0 }) } }) ∧
  (∀ (u : UniTxn) (s : State), s.resetLow = false → s.dbc.txn = some (.uni u) → u.cond = .awaiting →
     exec .replyWindowExpiry s = .next (finish s
       (((s.count .dropNoReply).freeBus.ownerOutcome u .noReply).health u.node u.frame.isRenew .noReply)))

/-- R28, R178: the reply frames that are valid for a transaction, and the outcome each gives.

R28, R32: a valid reply while AWAITING frees the bus, hands its outcome to the owner and then to the node-health
rules; any other frame is counted and the window runs on.

R32: the owner of each kind's outcome. -/
def Obligations.ReplyTaken : Prop :=
  (∀ (addr : Nat) (reads : Option Nat) (f : List Byte) (o : DropOutcome),
     readReply addr reads f = some o ↔
       checkGood f = true ∧ ∃ (a st c n : Byte) (vs : List Word) (chk : List Byte) (cls : HoldClass),
         f = a :: st :: c :: n :: (vs.flatMap wordBytes ++ chk) ∧ chk.length = 2 ∧
         vs.length = n.toNat ∧ a.toNat = addr ∧ cls.code = c ∧
         ((st = 0x01 ∧ n.toNat = reads.getD 0 ∧ o = .accepted cls vs) ∨
           (st = 0x02 ∧ n.toNat = 0 ∧ o = .refused cls))) ∧
  (∀ (u : UniTxn) (f : List Byte) (s : State), s.resetLow = false → s.dbc.txn = some (.uni u) →
     u.cond = .awaiting →
     (∀ o : DropOutcome, readReply (u.node.val + 1) u.frame.readCount f = some o →
       exec (.dropReplyTaken f) s = .next (finish s
         (({ s with dbc := { s.dbc with txn := none, idleTimer := 0 } }.ownerOutcome u o).health
           u.node u.frame.isRenew o))) ∧
     (readReply (u.node.val + 1) u.frame.readCount f = none →
       exec (.dropReplyTaken f) s = .next (finish s (s.count .dropReplyFaults)))) ∧
  (∀ (u : UniTxn) (o : DropOutcome) (s : State),
     (∀ items : List Item, u.frame = .write items →
       s.ownerOutcome u o = s.writeOutcome u.node items o ∧ u.frame.isRenew = false ∧ u.frame.readCount = none) ∧
     (∀ pts : List PointIdx, u.frame = .read pts →
       s.ownerOutcome u o = s.readOutcome u.node pts o ∧ u.frame.isRenew = false ∧
         u.frame.readCount = some pts.length) ∧
     (∀ items : List Item, u.frame = .renew items →
       s.ownerOutcome u o = s.renewOutcome u.node o ∧ u.frame.isRenew = true ∧ u.frame.readCount = none) ∧
     (∀ (tag : Byte) (items : List Item), u.frame = .load tag items →
       s.ownerOutcome u o = s.loadOutcome u.node tag items o ∧ u.frame.isRenew = false ∧
         u.frame.readCount = none))

/-- R29: a frame received while the bus is FREE is counted, whatever it is, and changes nothing else: no transaction,
no idle timer, no block. -/
def Obligations.FrameWhileFree : Prop :=
  ∀ (f : List Byte) (s : State), s.resetLow = false → s.dbc.txn = none → s.drained = false →
    exec (.freeFrameReceived f) s = .next (closeEvent s (s.count .dropReplyFaults))

/-- R76: the kind of a forward-queue entry.

Table 11-4: bit i of a READ's mask is the i-th flag.

R80, R87: the outcome of a WRITE at its owner: ACCEPTED sets the carried points in item order and answers OK;
REFUSED and NO_REPLY change no point and answer NODE_REFUSED and NO_REPLY; each response carries the conditions
let through.

R90, R92, R112, R113: the outcomes of a MODIFY, a RELEASE and a READ at their owner. A MODIFY's response carries
its new value, ZERO and CHANGED whatever the outcome; an ACCEPTED RELEASE removes the record it is bound to
before its value is set, and another outcome clears the releasing mark; an OK READ carries the values with a
MISMATCH flag each. -/
def Obligations.PointOutcomes : Prop :=
  ((∀ items : List Item, (NodeOp.write items).kind = .write) ∧
   (∀ (p : PointIdx) (o : BitOp) (b : Fin 16), (NodeOp.modify p o b).kind = .modify) ∧
   (∀ pts : List PointIdx, (NodeOp.read pts).kind = .read) ∧ ∀ it : Item, (NodeOp.release it).kind = .release) ∧
  (∀ (flags : List Bool) (i : Nat), i < 16 → (maskOf flags).getLsbD i = flags.getD i false) ∧
  (∀ (n : NodeIdx) (items : List Item) (h : InHand) (s : State) (c : HoldClass),
     s.pou.inHand = some h → h.entry.op = .write items → h.modified = none →
     let t : State := { s with pou := { s.pou with inHand := none } }
     let r : Status → Response := fun st =>
       { originator := h.entry.originator, tag := h.entry.tag, kind := 0x01, status := st,
         flags := { passed := h.entry.passed } }
     s.writeOutcome n items (.accepted c []) =
       (items.foldl (fun u it => u.setActive n it.point it.value .write) t).respond (r .ok) ∧
     s.writeOutcome n items (.refused c) = t.respond (r .nodeRefused) ∧
     s.writeOutcome n items .noReply = t.respond (r .noReply)) ∧
  (∀ (n : NodeIdx) (h : InHand) (s : State) (c : HoldClass), s.pou.inHand = some h →
     let t : State := { s with pou := { s.pou with inHand := none } }
     let r : RespFlags → List Byte → Status → Response := fun flags body st =>
       { originator := h.entry.originator, tag := h.entry.tag, kind := h.entry.op.kind.code, status := st,
         flags := flags, body := body }
     (∀ (items : List Item) (p : PointIdx) (o : BitOp) (b : Fin 16) (v : Word) (changed : Bool),
       h.entry.op = .modify p o b → h.modified = some (v, changed) →
       let m : Status → Response :=
         r { passed := h.entry.passed, zero := v == 0#16, changed := changed } (wordBytes v)
       s.writeOutcome n items (.accepted c []) =
         (items.foldl (fun u it => u.setActive n it.point it.value .write) t).respond (m .ok) ∧
       s.writeOutcome n items (.refused c) = t.respond (m .nodeRefused) ∧
       s.writeOutcome n items .noReply = t.respond (m .noReply)) ∧
     (∀ it : Item, h.entry.op = .release it → h.modified = none →
       let tied : Claim → Bool := fun d =>
         d.node == h.entry.node && d.point == it.point && d.originator == h.entry.originator && d.releasing
       let freed : State := { t with claims := s.claims.map (fun d =>
         if tied d then { d with releasing := false } else d) }
       let m : Status → Response := r { passed := h.entry.passed } []
       s.writeOutcome n [it] (.accepted c []) =
         (State.setActive n it.point it.value .write
           { t with claims := s.claims.filter fun d => !tied d }).respond (m .ok) ∧
       s.writeOutcome n [it] (.refused c) = freed.respond (m .nodeRefused) ∧
       s.writeOutcome n [it] .noReply = freed.respond (m .noReply)) ∧
     (∀ (pts : List PointIdx) (vs : List Word), h.entry.op = .read pts →
       let flag : PointIdx → Word → Bool := fun p v => decide ((s.point n p).active ≠ some v)
       let m : List Byte → Status → Response := r { passed := h.entry.passed }
       s.readOutcome n pts (.accepted c vs) = t.respond (m (byteOf vs.length :: vs.flatMap wordBytes ++
         wordBytes (maskOf (List.zipWith flag pts vs))) .ok) ∧
       s.readOutcome n pts (.refused c) = t.respond (m [] .nodeRefused) ∧
       s.readOutcome n pts .noReply = t.respond (m [] .noReply)))

/-- R54: the rule for each outcome: a valid reply, ACCEPTED or REFUSED, or NO_REPLY.

R55 to R60: the node-health rules at a valid reply of a LIVE, LAPSED or SILENT node.

R58, R59, R18: the node-health rules at NO_REPLY, by the node's state; and R18 at a valid reply of a PARKED node. -/
def Obligations.NodeHealthAtOutcomes : Prop :=
  (∀ (n : NodeIdx) (isRenew : Bool) (c : HoldClass) (vs : List Word) (s : State),
     s.health n isRenew (.accepted c vs) = s.healthValid n isRenew true c ∧
     s.health n isRenew (.refused c) = s.healthValid n isRenew false c ∧
     s.health n isRenew .noReply = s.healthNoReply n isRenew) ∧
  (∀ (n : NodeIdx) (isRenew accepted : Bool) (c : HoldClass) (s : State),
     (s.node n).state.inService = true →
     let e := s.node n
     let d := if e.state = .silent then max e.debt s.params.wakeDebits else e.debt
     let e' : NodeEntry := { e with
       cls := c
       silence := 0
       debt := if accepted = true then d - 1 else d
       state := if c = .dropped then .lapsed else .live
       probe := if e.state = .silent ∧ isRenew = true then 8 else e.probe }
     s.healthValid n isRenew accepted c =
       if c = .dropped ∧ e.state ≠ .lapsed then (s.setNode n e').offer (.lapse n .dropped)
       else if c ≠ .dropped ∧ e.state ≠ .live then (s.setNode n e').offer (.restored n)
       else s.setNode n e') ∧
  (∀ (n : NodeIdx) (isRenew accepted : Bool) (c : HoldClass) (s : State),
     let e := s.node n
     ((e.state = .live ∨ e.state = .lapsed) → e.silence + 1 ≠ 3 →
       s.healthNoReply n isRenew = s.setNode n { e with silence := e.silence + 1 }) ∧
     ((e.state = .live ∨ e.state = .lapsed) → e.silence + 1 = 3 →
       s.healthNoReply n isRenew =
         (s.setNode n { e with silence := 3, state := .silent, probe := 8 }).offer (.silent n)) ∧
     (e.state = .silent → s.healthNoReply n isRenew =
       if isRenew then s.setNode n { e with probe := 8 } else s) ∧
     (e.state = .parked → s.healthNoReply n isRenew = s ∧
       s.healthValid n isRenew accepted c = s.setNode n { e with cls := c }))

/-- R31, R133, R7: the end of a TAKE of the commit in flight: the bus is FREE, every entry of the stage has become
active from its pending value with cause TAKE, in node order, the pending values are gone, the stage is CLOSED,
the COMMIT is answered COMMITTED, and the CE takes the next commit.

R134, R128: the end of the ABANDON of a failed commit, and of a CLEAR.

R133, R134, R119: the end of a commit: its COMMIT is answered to its originator with its tag, its stage is CLOSED
and empty, no commit is in flight, and the CE takes the next one (R129).

R7, R134, R140: removing the pending values of some stage entries touches the pending values of the points they
name and nothing else.

R140, R163: the end of a TAKE or an ABANDON whose commit is gone sets no active value, breaks no claim and
answers nothing: the bus is FREE, and no more. -/
def Obligations.BroadcastEnds : Prop :=
  (∀ (tag : Byte) (c : Commit) (s : State), s.resetLow = false →
     s.dbc.txn = some (.broad (.take tag)) → s.ce.commit = some c → c.phase = .taking →
     (s.stage c.originator).tag = some tag →
     let es := (s.stage c.originator).entries
     let t := (c.order.flatMap fun n => es.filter fun e => e.node = n).foldl
       (fun (u : State) e =>
         match (u.point e.node e.point).pending with
         | some v => u.setActive e.node e.point v .take
         | none => u) s.freeBus
     exec .takeTransmissionEnd s = .next (finish s
       ((t.dropPending es).endCommit c.originator .committed
         [tag, byteOf c.order.length, byteOf es.length]))) ∧
  (∀ s : State, s.resetLow = false →
     (∀ (tag : Byte) (c : Commit) (n : NodeIdx) (cause : FailCause), tag ≠ 0 →
       s.dbc.txn = some (.broad (.abandon tag)) → s.ce.commit = some c →
       c.phase = .abandoning n cause → (s.stage c.originator).tag = some tag →
       exec .abandonTransmissionEnd s = .next (finish s
         ((s.freeBus.dropPending (s.stage c.originator).entries).endCommit c.originator .commitFailed
           [byteOf (n.val + 1), cause.status.code]))) ∧
     (s.dbc.txn = some (.broad (.abandon 0)) →
       exec .clearTransmissionEnd s = .next (finish s
         (State.takeCommit { s.freeBus with ce := { s.ce with clearOwed := false } })))) ∧
  (∀ (o : Originator) (st : Status) (body : List Byte) (tag : Byte) (s : State),
     (s.stage o).request = some tag →
     let t := (s.respond { originator := o, tag := tag, kind := 0x10, status := st, body := body }).setStage
       o {}
     s.endCommit o st body = State.takeCommit { t with ce := { s.ce with commit := none } }) ∧
  (∀ (es : List StageEntry) (s : State) (n : NodeIdx) (p : PointIdx),
     (s.dropPending es).point n p =
       (if ∃ e ∈ es, e.node = n ∧ e.point = p then { s.point n p with pending := none } else s.point n p) ∧
     (s.dropPending es).node n = { s.node n with points := ((s.dropPending es).node n).points } ∧
     s.dropPending es = { s with nodes := (s.dropPending es).nodes }) ∧
  (∀ s : State, s.resetLow = false → s.ce.commit = none →
     (∀ tag : Byte, s.dbc.txn = some (.broad (.take tag)) →
       exec .takeTransmissionEnd s = .next (finish s
         { s with dbc := { s.dbc with txn := none, idleTimer := 0 } })) ∧
     (∀ tag : Byte, tag ≠ 0 → s.dbc.txn = some (.broad (.abandon tag)) →
       exec .abandonTransmissionEnd s = .next (finish s
         { s with dbc := { s.dbc with txn := none, idleTimer := 0 } })))

/-! ## Levels, accrual and phase events -/

/-- R49: the renewal level of a node by its state, debt and probe countdown. -/
def Obligations.RenewalLevels : Prop :=
  ∀ (p : Params) (e : NodeEntry), p.highWatermark < p.panicWatermark → 1 ≤ p.highWatermark →
    (e.state = .lapsed → levelOf p e = some .panic) ∧
    (e.state = .live → p.panicWatermark ≤ e.debt → levelOf p e = some .panic) ∧
    (e.state = .live → p.highWatermark ≤ e.debt → e.debt < p.panicWatermark →
      levelOf p e = some .high) ∧
    (e.state = .live → 1 ≤ e.debt → e.debt < p.highWatermark → levelOf p e = some .low) ∧
    (e.state = .live → e.debt = 0 → levelOf p e = none) ∧
    (e.state = .silent → e.probe = 0 → levelOf p e = some .high) ∧
    (e.state = .silent → e.probe ≠ 0 → levelOf p e = none) ∧
    (e.state = .parked ∨ e.state = .absent → levelOf p e = none)

/-- R50: the candidate has the highest level present, among those the highest debt, and among those it is the first
met in the scan upward from the address after the last-renewed one; with no level present there is none. -/
def Obligations.RenewalCandidate : Prop :=
  ∀ s : State,
    let rank : Level → Nat := fun l =>
      match l with
      | .low => 0
      | .high => 1
      | .panic => 2
    (s.candidate = none ↔ ∀ n : NodeIdx, levelOf s.params (s.node n) = none) ∧
    ∀ o : Offer, s.candidate = some o →
      levelOf s.params (s.node o.node) = some o.level ∧ o.debt = (s.node o.node).debt ∧
      ∀ (m : NodeIdx) (l : Level), levelOf s.params (s.node m) = some l →
        rank l < rank o.level ∨
        (l = o.level ∧ (s.node m).debt < o.debt) ∨
        (l = o.level ∧ (s.node m).debt = o.debt ∧
          (o.node.val + 48 - s.rs.lastRenewed.val - 1) % 48 ≤
            (m.val + 48 - s.rs.lastRenewed.val - 1) % 48)

/-- R45, R46, R47: a node at its accrual event.

R44: which phase event is a node's accrual event. -/
def Obligations.Accrual : Prop :=
  (∀ (n : NodeIdx) (e : NodeEntry),
     let add := match e.cls with
       | .relaxed => if e.alternation then 1 else 0
       | .standard => 1
       | .tight | .dropped => 2
     let alt := if e.cls = .relaxed then !e.alternation else e.alternation
     ((e.state = .live ∨ e.state = .lapsed) → e.debt + add ≤ 8 →
       accrue n e = ({ e with debt := e.debt + add, alternation := alt }, none)) ∧
     (e.state = .live → 8 < e.debt + add →
       accrue n e = ({ e with debt := 8, state := .lapsed, alternation := alt },
         some (.lapse n .overdue))) ∧
     (e.state = .lapsed → 8 < e.debt + add →
       accrue n e = ({ e with debt := 8, alternation := alt }, none)) ∧
     (e.state = .silent → accrue n e = ({ e with probe := e.probe - 1 }, none)) ∧
     (e.state = .parked ∨ e.state = .absent → accrue n e = (e, none))) ∧
  (∀ (p : Fin 4) (n : NodeIdx),
     (accruesAt true p n = true ↔ (n.val + 1) % 4 = p.val) ∧ (accruesAt false p n = true ↔ p = 0))

/-- R42, R43, R45, R114, R123, R160: a phase event: the phase advances from 3 to 0, a quarter of the renewal interval
begins, phase 0 adds 1 to the interval count and ages claims and OPEN stages, and outside HALTED the nodes of the
phase accrue; then come the records (stated last), the NOTICE and the decision. The interval expiry is the phase
event after phase 3.

R43, R45, R46, R114, R123, R144: the records of a phase event: at an interval expiry a CLAIM_EXPIRED for every
claim that expires, by node and then point, and a STAGE_EXPIRED for every stage that expires, by originator, with
the entries freed; outside HALTED a LAPSE OVERDUE for every node of the phase that lapses, by address; the three
groups in an order left open. All carry the new interval count; those that find 32 records are lost. -/
def Obligations.PhaseEvent : Prop :=
  (∀ s : State, s.resetLow = false →
     exec .phaseEvent s = .next (finish s s.phaseStep) ∧
     (s.rs.phase = 3 → exec .intervalExpiry s = .next (finish s s.phaseStep)) ∧
     s.phaseStep.rs = { s.rs with
       phase := s.rs.phase + 1
       quarterLeft := 25 * s.params.renewalInterval
       intervalCount := if s.rs.phase = 3 then s.rs.intervalCount + 1 else s.rs.intervalCount } ∧
     (∀ n : NodeIdx, s.phaseStep.node n =
       if s.mode ≠ .halted ∧ accruesAt s.params.stagger (s.rs.phase + 1) n = true
       then (accrue n (s.node n)).1 else s.node n) ∧
     s.phaseStep.claims = (if s.rs.phase = 3 then
       (s.claims.map fun c => if c.releasing then c else { c with life := c.life - 1 }).filter
         fun c => c.releasing || c.life != 0
       else s.claims) ∧
     (∀ o : Originator, s.phaseStep.stage o =
       if s.rs.phase = 3 ∧ (s.stage o).state = .opened then
         (if (s.stage o).life.getD 0 ≤ 1 then {} else
           { s.stage o with life := (s.stage o).life.map fun l => l - 1 })
       else s.stage o)) ∧
  (∀ s : State, ∃ (ks : List Claim) (r : List ExcBody),
     let add : NodeEntry → Nat := fun e =>
       match e.cls with
       | .relaxed => if e.alternation then 1 else 0
       | .standard => 1
       | .tight | .dropped => 2
     let a : List ExcBody :=
       if s.rs.phase = 3 then ks.map fun c => .claimExpired c.node c.point c.originator else []
     let b : List ExcBody :=
       if s.rs.phase = 3 then
         ((List.finRange 4).filter fun o =>
           decide ((s.stage o).state = .opened ∧ (s.stage o).life.getD 0 ≤ 1)).map
           fun o => .stageExpired o (s.stage o).entries.length
       else []
     let l : List ExcBody :=
       if s.mode = .halted then [] else
         ((List.finRange 48).filter fun n => decide (accruesAt s.params.stagger (s.rs.phase + 1) n = true ∧
           (s.node n).state = .live ∧ 8 < (s.node n).debt + add (s.node n))).map fun n => .lapse n .overdue
     let t := s.phaseStep
     let room := 32 - s.exq.queue.length
     ks.Perm (s.claims.filter fun c => decide (c.releasing = false ∧ c.life ≤ 1)) ∧
     ks.Pairwise (fun c d => c.node.val < d.node.val ∨ (c.node = d.node ∧ c.point.val ≤ d.point.val)) ∧
     r.Perm (a ++ b ++ l) ∧ a.Sublist r ∧ b.Sublist r ∧ l.Sublist r ∧
     t.exq.queue = s.exq.queue ++ (r.take room).map (fun x => { body := x, stamp := t.rs.intervalCount }) ∧
     t.counters.exceptionsLost = s.counters.exceptionsLost + BitVec.ofNat 16 (r.length - room) ∧
     t = r.foldl (fun u x => u.offer x)
       { s with rs := t.rs, nodes := t.nodes, claims := t.claims, stages := t.stages, freeIndex := t.freeIndex })

/-! ## Layouts -/

/-- R176: the nine bytes 0x31 to 0x39 give 0x29B1, and a frame with its check put at its end passes it.

Section 11.2: the bytes of a request frame.

R177, section 11.2: every request frame reads back as it was laid out: originator, destination, tag, kind, length
and body.

Table 11-2: every request body reads back as it was laid out, with every operand at every value its layout
admits.

R175, sections 11.3 and 11.5: the bytes of every frame the part sends, each with its check at its end, most
significant byte first.

R175, Tables 11-6 and 11-7: an exception record and a point record. Tables 11-8, 11-9, 11-11 and 11-14: the
codes.

Table 11-11: the value codes of the sixteen parameters, and R71: who is in the manager set. -/
def Obligations.FramesReadAsLaidOut : Prop :=
  (crc16 [0x31, 0x32, 0x33, 0x34, 0x35, 0x36, 0x37, 0x38, 0x39] = 0x29B1#16 ∧
     ∀ bs : List Byte, 4 ≤ bs.length → checkGood (withCheck bs) = true) ∧
  (∀ (kind : Byte) (rq : Request),
     trunkFrameBytes kind rq =
       withCheck ([byteOf (64 * rq.originator.val + rq.destination.toNat), rq.tag, kind, rq.length] ++ rq.body)) ∧
  (∀ (kind : Byte) (rq : Request),
     checkGood (trunkFrameBytes kind rq) = true ∧
       readTrunkFrame (trunkFrameBytes kind rq) = some (kind, rq)) ∧
  ((∀ items : List Item, 1 ≤ items.length → items.length ≤ 16 → (items.map Item.point).Nodup →
     readItemsBody (itemsBody items) = some items) ∧
   (∀ pts : List PointIdx, 1 ≤ pts.length → pts.length ≤ 16 → pts.Nodup →
     readPointsBody (pointsBody pts) = some pts) ∧
   (∀ (p : PointIdx) (o : BitOp) (b : Fin 16), readModifyBody (modifyBody p o b) = some (p, o, b)) ∧
   (∀ it : Item, readItemBody (itemBody it) = some it) ∧
   (∀ (p : PointIdx) (b : Fin 16), readTestBody (testBody p b) = some (p, b)) ∧
   (∀ p : PointIdx, readPointBody (pointBody p) = some p) ∧
   (∀ (n : NodeIdx) (ds : List Decl), 1 ≤ ds.length → ds.length ≤ 16 →
     (ds.map Decl.point).Nodup → (∀ d ∈ ds, 1 ≤ d.width ∧ d.width ≤ 16) →
     readConfigureBody (configureBody n ds) = some (n, ds)) ∧
   (∀ n : NodeIdx, readNodeBody (nodeBody n) = some n) ∧
   (∀ ps : List (ParamId × Byte), 1 ≤ ps.length → ps.length ≤ 16 → (ps.map Prod.fst).Nodup →
     readParamsBody (paramsBody ps) = some ps) ∧
   (∀ m : ModeRequest, readModeBody (modeBody m) = some m) ∧
   (∀ c : Bool, readOptionBody (optionBody c) = some c) ∧
   (∀ k : Nat, 1 ≤ k → k ≤ 8 → readNumberBody (numberBody k) = some k) ∧
   ∀ m : BitVec 5, readMaskBody (maskBody m) = some m) ∧
  ((crc16 [] = 0xFFFF#16 ∧ ∀ (bs : List Byte) (b : Byte),
     withCheck bs = bs ++ [byteOf ((crc16 bs).toNat / 256), byteOf (crc16 bs).toNat] ∧
     crc16 (bs ++ [b]) = (List.range 8).foldl
       (fun (c : Word) _ => if c.msb then (c <<< 1) ^^^ 0x1021#16 else c <<< 1)
       (crc16 bs ^^^ (b.setWidth 16 <<< 8))) ∧
   (∀ r : Response, (TrunkFrame.response r).bytes =
       withCheck ([byteOf (64 * r.originator.val), r.tag, r.kind, r.status.code, r.flags.byte,
         byteOf r.body.length] ++ r.body) ∧
     r.flags.byte.getLsbD 0 = r.flags.passed.overrange ∧ r.flags.byte.getLsbD 1 = r.flags.passed.conflict ∧
     r.flags.byte.getLsbD 2 = r.flags.passed.broken ∧ r.flags.byte.getLsbD 3 = r.flags.zero ∧
     r.flags.byte.getLsbD 4 = r.flags.changed ∧ r.flags.byte.getLsbD 5 = r.flags.unset ∧
     r.flags.byte.getLsbD 6 = r.flags.pending ∧ r.flags.byte.getLsbD 7 = false) ∧
   (∀ (o : Originator) (flags : BitVec 5) (n : Nat), (TrunkFrame.notice o flags n).bytes =
     withCheck [byteOf (64 * o.val), 0x00, 0x7F, flags.setWidth 8, byteOf n]) ∧
   (∀ (n : NodeIdx) (items : List Item) (pts : List PointIdx) (tag : Byte),
     let its : List Byte := byteOf items.length :: items.flatMap fun it =>
       [byteOf it.point.val, byteOf (it.value.toNat / 256), byteOf it.value.toNat]
     UniFrame.bytes n (.write items) =
       withCheck ([byteOf (n.val + 1), 0x01, byteOf (1 + 3 * items.length)] ++ its) ∧
     UniFrame.bytes n (.read pts) = withCheck ([byteOf (n.val + 1), 0x02, byteOf (1 + pts.length)] ++
       byteOf pts.length :: pts.map fun p => byteOf p.val) ∧
     UniFrame.bytes n (.renew items) =
       withCheck ([byteOf (n.val + 1), 0x03, byteOf (1 + 3 * items.length)] ++ its) ∧
     UniFrame.bytes n (.load tag items) =
       withCheck ([byteOf (n.val + 1), 0x04, byteOf (2 + 3 * items.length)] ++ tag :: its) ∧
     BroadFrame.bytes (.take tag) = withCheck [0x3F, 0x05, 0x01, tag] ∧
     BroadFrame.bytes (.abandon tag) = withCheck [0x3F, 0x06, 0x01, tag])) ∧
  ((∀ (n : NodeIdx) (p : PointIdx) (o : Originator) (k : Nat) (w : Word),
     let bytes : ExcBody → List Byte := fun b => ExcRecord.bytes { body := b, stamp := w }
     let a : Byte := byteOf (n.val + 1)
     let hi : Byte := byteOf (w.toNat / 256)
     let lo : Byte := byteOf w.toNat
     bytes (.lapse n .overdue) = [0x01, a, 0xFF, 0xFF, 0x01, hi, lo] ∧
     bytes (.lapse n .dropped) = [0x01, a, 0xFF, 0xFF, 0x02, hi, lo] ∧
     bytes (.silent n) = [0x02, a, 0xFF, 0xFF, 0x00, hi, lo] ∧
     bytes (.restored n) = [0x03, a, 0xFF, 0xFF, 0x00, hi, lo] ∧
     bytes (.renewRefused n) = [0x04, a, 0xFF, 0xFF, 0x00, hi, lo] ∧
     bytes (.claimBroken n p o .write) = [0x05, a, byteOf p.val, byteOf o.val, 0x01, hi, lo] ∧
     bytes (.claimBroken n p o .take) = [0x05, a, byteOf p.val, byteOf o.val, 0x02, hi, lo] ∧
     bytes (.claimExpired n p o) = [0x06, a, byteOf p.val, byteOf o.val, 0x00, hi, lo] ∧
     bytes (.stageExpired o k) = [0x07, 0x00, 0xFF, byteOf o.val, byteOf k, hi, lo]) ∧
   (∀ r : PointRec,
     let v := r.active.getD 0
     let q := r.pending.getD 0
     r.bytes = [byteOf (r.width.getD 0),
       (if r.held then 0x01 else 0x00) ||| (if r.active.isSome then 0x02 else 0x00) |||
         (if r.pending.isSome then 0x04 else 0x00),
       byteOf (v.toNat / 256), byteOf v.toNat, byteOf (q.toNat / 256), byteOf q.toNat]) ∧
   ([Status.ok, .malformed, .notPermitted, .offline, .busy, .nodeState, .undeclared, .badBit, .overrange, .unset,
     .conflict, .claimed, .claimFull, .noClaim, .broken, .stageBusy, .stageFull, .exhausted, .empty, .noReply,
     .nodeRefused, .committed, .commitFailed, .aborted, .inUse, .mode, .badParam].map Status.code =
     (List.range 27).map byteOf) ∧
   ([ReqKind.write, .modify, .read, .release, .test, .claim, .unclaim, .stage].map ReqKind.code =
     (List.range' 1 8).map byteOf) ∧
   ([ReqKind.commit, .discard].map ReqKind.code = [0x10, 0x11]) ∧
   ([ReqKind.configureNode, .removeNode, .parkNode, .unparkNode, .nodeStatus, .setParameters, .readParameters,
     .setMode, .flush, .fullReset, .readStatus, .readExceptions, .readNotices, .setNoticeMask,
     .readCounters].map ReqKind.code = (List.range' 0x20 15).map byteOf) ∧
   ([HoldClass.relaxed, .standard, .tight, .dropped].map HoldClass.code = [0x00, 0x01, 0x02, 0x03]) ∧
   ([NodeState.absent, .parked, .live, .lapsed, .silent].map NodeState.code =
     [0x00, 0x01, 0x02, 0x03, 0x04]) ∧
   ([Mode.run, .draining, .halted].map Mode.code = [0x01, 0x02, 0x03]) ∧
   ([ParamId.renewalInterval, .stagger, .highWatermark, .panicWatermark, .wakeDebits, .replyWindowCode,
     .idleWindow, .arbMode, .commitPace, .claimTimeout, .stageTimeout, .overrangePotency, .conflictPotency,
     .brokenPotency, .noticeOriginator, .managerSet].map ParamId.code = (List.range' 1 16).map byteOf)) ∧
  (∀ p : Params,
     let potency : Potency → Byte := fun q =>
       match q with
       | .potent => 0x00
       | .impotent => 0x01
     ParamId.all.map (fun i => (i, p.get i)) =
       [(.renewalInterval, byteOf p.renewalInterval), (.stagger, if p.stagger then 0x01 else 0x00),
        (.highWatermark, byteOf p.highWatermark), (.panicWatermark, byteOf p.panicWatermark),
        (.wakeDebits, byteOf p.wakeDebits), (.replyWindowCode, byteOf p.replyWindowCode),
        (.idleWindow, byteOf p.idleWindow),
        (.arbMode, match p.arbMode with
         | .fixed => 0x00
         | .rotate => 0x01
         | .lead => 0x02),
        (.commitPace, match p.commitPace with
         | .burst => 0x00
         | .yield => 0x01),
        (.claimTimeout, byteOf p.claimTimeout), (.stageTimeout, byteOf p.stageTimeout),
        (.overrangePotency, potency p.overrangePotency), (.conflictPotency, potency p.conflictPotency),
        (.brokenPotency, potency p.brokenPotency), (.noticeOriginator, byteOf p.noticeOriginator.val),
        (.managerSet, p.managerSet.setWidth 8)] ∧
     (∀ o : Originator, (p.get .managerSet).getLsbD o.val = p.isManager o) ∧
     ∀ i : Nat, 4 ≤ i → (p.get .managerSet).getLsbD i = false)

/-! ## What every step keeps -/

/-- R82, R83: every step keeps the transmit queue within 32 frames, PAUSE asserted from 24 and released at 16. -/
def Obligations.TransmitQueueStaysLegal : Prop :=
  Kept TransmitQueueLegal

/-- R76, R103, R143, R38, R79, R80: every step keeps the capacities of the forward queue, the Claim Table and the
exception queue, the two lists of the arbiter, and a request in hand exactly while a WRITE or READ is in flight. -/
def Obligations.CapacitiesAndListsStayLegal : Prop :=
  Kept ForwardQueueLegal ∧ Kept ClaimTableLegal ∧ Kept ExceptionQueueLegal ∧ Kept ListsLegal ∧
    Kept InHandLegal

/-- R168, R46, R58: every step keeps every parameter in its range and every node's health in its range. -/
def Obligations.ParametersAndHealthStayLegal : Prop :=
  Kept HealthLegal

/-- R77, R126, R127, R158, R160: every step keeps what the mode says of the queues, the commit and the bus. -/
def Obligations.ModeStaysLegal : Prop :=
  Kept ModeLegal

/-- R119, R126, R127: every step from a state with a legal Stage Store keeps it so. -/
def Obligations.StageStoreStaysLegal : Prop :=
  Kept StageStoreLegal

/-- R3, R5: every step keeps every value of the shadow, and every value on its way to it, within its point's declared
width. -/
def Obligations.ShadowStaysInWidth : Prop :=
  Kept ShadowLegal

/-- The reset state has every property that a step keeps. -/
def Obligations.ResetIsLegal : Prop :=
  TransmitQueueLegal State.reset ∧ ForwardQueueLegal State.reset ∧ ClaimTableLegal State.reset ∧
    ExceptionQueueLegal State.reset ∧ ListsLegal State.reset ∧ InHandLegal State.reset ∧
    HealthLegal State.reset ∧
    ModeLegal State.reset ∧ StageStoreLegal State.reset ∧ ShadowLegal State.reset
end

