-- ==== Sys2Proof/Laws/State.lean ====
section
/-! SUPPORT. One simp lemma per field and update: what each named update of the state leaves alone, and what it
puts into the field it writes. No later proof needs to unfold a record update. -/

namespace Sys2Proof.Machine

variable (s : State)

/-! ### State.setNode -/

@[simp] theorem setNode_tp (n : NodeIdx) (e : NodeEntry) : (s.setNode n e).tp = s.tp := rfl
@[simp] theorem setNode_pou (n : NodeIdx) (e : NodeEntry) : (s.setNode n e).pou = s.pou := rfl
@[simp] theorem setNode_rs (n : NodeIdx) (e : NodeEntry) : (s.setNode n e).rs = s.rs := rfl
@[simp] theorem setNode_claims (n : NodeIdx) (e : NodeEntry) : (s.setNode n e).claims = s.claims := rfl
@[simp] theorem setNode_stages (n : NodeIdx) (e : NodeEntry) : (s.setNode n e).stages = s.stages := rfl
@[simp] theorem setNode_ce (n : NodeIdx) (e : NodeEntry) : (s.setNode n e).ce = s.ce := rfl
@[simp] theorem setNode_dbc (n : NodeIdx) (e : NodeEntry) : (s.setNode n e).dbc = s.dbc := rfl
@[simp] theorem setNode_exq (n : NodeIdx) (e : NodeEntry) : (s.setNode n e).exq = s.exq := rfl
@[simp] theorem setNode_counters (n : NodeIdx) (e : NodeEntry) : (s.setNode n e).counters = s.counters := rfl
@[simp] theorem setNode_mode (n : NodeIdx) (e : NodeEntry) : (s.setNode n e).mode = s.mode := rfl
@[simp] theorem setNode_params (n : NodeIdx) (e : NodeEntry) : (s.setNode n e).params = s.params := rfl
@[simp] theorem setNode_resetLow (n : NodeIdx) (e : NodeEntry) : (s.setNode n e).resetLow = s.resetLow := rfl
@[simp] theorem setNode_freeIndex (n : NodeIdx) (e : NodeEntry) : (s.setNode n e).freeIndex = s.freeIndex := rfl
@[simp] theorem setNode_pending (n : NodeIdx) (e : NodeEntry) : (s.setNode n e).pending = s.pending := rfl

/-! ### State.setPoint -/

@[simp] theorem setPoint_tp (n : NodeIdx) (p : PointIdx) (r : PointRec) : (s.setPoint n p r).tp = s.tp := rfl
@[simp] theorem setPoint_pou (n : NodeIdx) (p : PointIdx) (r : PointRec) : (s.setPoint n p r).pou = s.pou := rfl
@[simp] theorem setPoint_rs (n : NodeIdx) (p : PointIdx) (r : PointRec) : (s.setPoint n p r).rs = s.rs := rfl
@[simp] theorem setPoint_claims (n : NodeIdx) (p : PointIdx) (r : PointRec) : (s.setPoint n p r).claims = s.claims := rfl
@[simp] theorem setPoint_stages (n : NodeIdx) (p : PointIdx) (r : PointRec) : (s.setPoint n p r).stages = s.stages := rfl
@[simp] theorem setPoint_ce (n : NodeIdx) (p : PointIdx) (r : PointRec) : (s.setPoint n p r).ce = s.ce := rfl
@[simp] theorem setPoint_dbc (n : NodeIdx) (p : PointIdx) (r : PointRec) : (s.setPoint n p r).dbc = s.dbc := rfl
@[simp] theorem setPoint_exq (n : NodeIdx) (p : PointIdx) (r : PointRec) : (s.setPoint n p r).exq = s.exq := rfl
@[simp] theorem setPoint_counters (n : NodeIdx) (p : PointIdx) (r : PointRec) : (s.setPoint n p r).counters = s.counters := rfl
@[simp] theorem setPoint_mode (n : NodeIdx) (p : PointIdx) (r : PointRec) : (s.setPoint n p r).mode = s.mode := rfl
@[simp] theorem setPoint_params (n : NodeIdx) (p : PointIdx) (r : PointRec) : (s.setPoint n p r).params = s.params := rfl
@[simp] theorem setPoint_resetLow (n : NodeIdx) (p : PointIdx) (r : PointRec) : (s.setPoint n p r).resetLow = s.resetLow := rfl
@[simp] theorem setPoint_freeIndex (n : NodeIdx) (p : PointIdx) (r : PointRec) : (s.setPoint n p r).freeIndex = s.freeIndex := rfl
@[simp] theorem setPoint_pending (n : NodeIdx) (p : PointIdx) (r : PointRec) : (s.setPoint n p r).pending = s.pending := rfl

/-! ### State.setPending -/

@[simp] theorem setPending_tp (n : NodeIdx) (p : PointIdx) (v : Option Word) : (s.setPending n p v).tp = s.tp := rfl
@[simp] theorem setPending_pou (n : NodeIdx) (p : PointIdx) (v : Option Word) : (s.setPending n p v).pou = s.pou := rfl
@[simp] theorem setPending_rs (n : NodeIdx) (p : PointIdx) (v : Option Word) : (s.setPending n p v).rs = s.rs := rfl
@[simp] theorem setPending_claims (n : NodeIdx) (p : PointIdx) (v : Option Word) : (s.setPending n p v).claims = s.claims := rfl
@[simp] theorem setPending_stages (n : NodeIdx) (p : PointIdx) (v : Option Word) : (s.setPending n p v).stages = s.stages := rfl
@[simp] theorem setPending_ce (n : NodeIdx) (p : PointIdx) (v : Option Word) : (s.setPending n p v).ce = s.ce := rfl
@[simp] theorem setPending_dbc (n : NodeIdx) (p : PointIdx) (v : Option Word) : (s.setPending n p v).dbc = s.dbc := rfl
@[simp] theorem setPending_exq (n : NodeIdx) (p : PointIdx) (v : Option Word) : (s.setPending n p v).exq = s.exq := rfl
@[simp] theorem setPending_counters (n : NodeIdx) (p : PointIdx) (v : Option Word) : (s.setPending n p v).counters = s.counters := rfl
@[simp] theorem setPending_mode (n : NodeIdx) (p : PointIdx) (v : Option Word) : (s.setPending n p v).mode = s.mode := rfl
@[simp] theorem setPending_params (n : NodeIdx) (p : PointIdx) (v : Option Word) : (s.setPending n p v).params = s.params := rfl
@[simp] theorem setPending_resetLow (n : NodeIdx) (p : PointIdx) (v : Option Word) : (s.setPending n p v).resetLow = s.resetLow := rfl
@[simp] theorem setPending_freeIndex (n : NodeIdx) (p : PointIdx) (v : Option Word) : (s.setPending n p v).freeIndex = s.freeIndex := rfl
@[simp] theorem setPending_pending (n : NodeIdx) (p : PointIdx) (v : Option Word) : (s.setPending n p v).pending = s.pending := rfl

/-! ### State.wakeAll -/

@[simp] theorem wakeAll_tp : s.wakeAll.tp = s.tp := rfl
@[simp] theorem wakeAll_pou : s.wakeAll.pou = s.pou := rfl
@[simp] theorem wakeAll_rs : s.wakeAll.rs = s.rs := rfl
@[simp] theorem wakeAll_claims : s.wakeAll.claims = s.claims := rfl
@[simp] theorem wakeAll_stages : s.wakeAll.stages = s.stages := rfl
@[simp] theorem wakeAll_ce : s.wakeAll.ce = s.ce := rfl
@[simp] theorem wakeAll_dbc : s.wakeAll.dbc = s.dbc := rfl
@[simp] theorem wakeAll_exq : s.wakeAll.exq = s.exq := rfl
@[simp] theorem wakeAll_counters : s.wakeAll.counters = s.counters := rfl
@[simp] theorem wakeAll_mode : s.wakeAll.mode = s.mode := rfl
@[simp] theorem wakeAll_params : s.wakeAll.params = s.params := rfl
@[simp] theorem wakeAll_resetLow : s.wakeAll.resetLow = s.resetLow := rfl
@[simp] theorem wakeAll_freeIndex : s.wakeAll.freeIndex = s.freeIndex := rfl
@[simp] theorem wakeAll_pending : s.wakeAll.pending = s.pending := rfl

/-! ### State.raise -/

@[simp] theorem raise_nodes (f : NoticeFlag) : (s.raise f).nodes = s.nodes := rfl
@[simp] theorem raise_tp (f : NoticeFlag) : (s.raise f).tp = s.tp := rfl
@[simp] theorem raise_pou (f : NoticeFlag) : (s.raise f).pou = s.pou := rfl
@[simp] theorem raise_rs (f : NoticeFlag) : (s.raise f).rs = s.rs := rfl
@[simp] theorem raise_claims (f : NoticeFlag) : (s.raise f).claims = s.claims := rfl
@[simp] theorem raise_stages (f : NoticeFlag) : (s.raise f).stages = s.stages := rfl
@[simp] theorem raise_ce (f : NoticeFlag) : (s.raise f).ce = s.ce := rfl
@[simp] theorem raise_dbc (f : NoticeFlag) : (s.raise f).dbc = s.dbc := rfl
@[simp] theorem raise_counters (f : NoticeFlag) : (s.raise f).counters = s.counters := rfl
@[simp] theorem raise_mode (f : NoticeFlag) : (s.raise f).mode = s.mode := rfl
@[simp] theorem raise_params (f : NoticeFlag) : (s.raise f).params = s.params := rfl
@[simp] theorem raise_resetLow (f : NoticeFlag) : (s.raise f).resetLow = s.resetLow := rfl
@[simp] theorem raise_freeIndex (f : NoticeFlag) : (s.raise f).freeIndex = s.freeIndex := rfl
@[simp] theorem raise_pending (f : NoticeFlag) : (s.raise f).pending = s.pending := rfl

/-! ### State.enqueue -/

@[simp] theorem enqueue_nodes (f : TrunkFrame) : (s.enqueue f).nodes = s.nodes := rfl
@[simp] theorem enqueue_pou (f : TrunkFrame) : (s.enqueue f).pou = s.pou := rfl
@[simp] theorem enqueue_rs (f : TrunkFrame) : (s.enqueue f).rs = s.rs := rfl
@[simp] theorem enqueue_claims (f : TrunkFrame) : (s.enqueue f).claims = s.claims := rfl
@[simp] theorem enqueue_stages (f : TrunkFrame) : (s.enqueue f).stages = s.stages := rfl
@[simp] theorem enqueue_ce (f : TrunkFrame) : (s.enqueue f).ce = s.ce := rfl
@[simp] theorem enqueue_dbc (f : TrunkFrame) : (s.enqueue f).dbc = s.dbc := rfl
@[simp] theorem enqueue_exq (f : TrunkFrame) : (s.enqueue f).exq = s.exq := rfl
@[simp] theorem enqueue_counters (f : TrunkFrame) : (s.enqueue f).counters = s.counters := rfl
@[simp] theorem enqueue_mode (f : TrunkFrame) : (s.enqueue f).mode = s.mode := rfl
@[simp] theorem enqueue_params (f : TrunkFrame) : (s.enqueue f).params = s.params := rfl
@[simp] theorem enqueue_resetLow (f : TrunkFrame) : (s.enqueue f).resetLow = s.resetLow := rfl
@[simp] theorem enqueue_freeIndex (f : TrunkFrame) : (s.enqueue f).freeIndex = s.freeIndex := rfl
@[simp] theorem enqueue_pending (f : TrunkFrame) : (s.enqueue f).pending = s.pending := rfl

/-! ### State.frameLeft -/

@[simp] theorem frameLeft_nodes (rest : List TrunkFrame) : (s.frameLeft rest).nodes = s.nodes := rfl
@[simp] theorem frameLeft_pou (rest : List TrunkFrame) : (s.frameLeft rest).pou = s.pou := rfl
@[simp] theorem frameLeft_rs (rest : List TrunkFrame) : (s.frameLeft rest).rs = s.rs := rfl
@[simp] theorem frameLeft_claims (rest : List TrunkFrame) : (s.frameLeft rest).claims = s.claims := rfl
@[simp] theorem frameLeft_stages (rest : List TrunkFrame) : (s.frameLeft rest).stages = s.stages := rfl
@[simp] theorem frameLeft_ce (rest : List TrunkFrame) : (s.frameLeft rest).ce = s.ce := rfl
@[simp] theorem frameLeft_dbc (rest : List TrunkFrame) : (s.frameLeft rest).dbc = s.dbc := rfl
@[simp] theorem frameLeft_exq (rest : List TrunkFrame) : (s.frameLeft rest).exq = s.exq := rfl
@[simp] theorem frameLeft_counters (rest : List TrunkFrame) : (s.frameLeft rest).counters = s.counters := rfl
@[simp] theorem frameLeft_mode (rest : List TrunkFrame) : (s.frameLeft rest).mode = s.mode := rfl
@[simp] theorem frameLeft_params (rest : List TrunkFrame) : (s.frameLeft rest).params = s.params := rfl
@[simp] theorem frameLeft_resetLow (rest : List TrunkFrame) : (s.frameLeft rest).resetLow = s.resetLow := rfl
@[simp] theorem frameLeft_freeIndex (rest : List TrunkFrame) : (s.frameLeft rest).freeIndex = s.freeIndex := rfl
@[simp] theorem frameLeft_pending (rest : List TrunkFrame) : (s.frameLeft rest).pending = s.pending := rfl

/-! ### State.mapClaim -/

@[simp] theorem mapClaim_nodes (n : NodeIdx) (p : PointIdx) (f : Claim → Claim) : (s.mapClaim n p f).nodes = s.nodes := rfl
@[simp] theorem mapClaim_tp (n : NodeIdx) (p : PointIdx) (f : Claim → Claim) : (s.mapClaim n p f).tp = s.tp := rfl
@[simp] theorem mapClaim_pou (n : NodeIdx) (p : PointIdx) (f : Claim → Claim) : (s.mapClaim n p f).pou = s.pou := rfl
@[simp] theorem mapClaim_rs (n : NodeIdx) (p : PointIdx) (f : Claim → Claim) : (s.mapClaim n p f).rs = s.rs := rfl
@[simp] theorem mapClaim_stages (n : NodeIdx) (p : PointIdx) (f : Claim → Claim) : (s.mapClaim n p f).stages = s.stages := rfl
@[simp] theorem mapClaim_ce (n : NodeIdx) (p : PointIdx) (f : Claim → Claim) : (s.mapClaim n p f).ce = s.ce := rfl
@[simp] theorem mapClaim_dbc (n : NodeIdx) (p : PointIdx) (f : Claim → Claim) : (s.mapClaim n p f).dbc = s.dbc := rfl
@[simp] theorem mapClaim_exq (n : NodeIdx) (p : PointIdx) (f : Claim → Claim) : (s.mapClaim n p f).exq = s.exq := rfl
@[simp] theorem mapClaim_counters (n : NodeIdx) (p : PointIdx) (f : Claim → Claim) : (s.mapClaim n p f).counters = s.counters := rfl
@[simp] theorem mapClaim_mode (n : NodeIdx) (p : PointIdx) (f : Claim → Claim) : (s.mapClaim n p f).mode = s.mode := rfl
@[simp] theorem mapClaim_params (n : NodeIdx) (p : PointIdx) (f : Claim → Claim) : (s.mapClaim n p f).params = s.params := rfl
@[simp] theorem mapClaim_resetLow (n : NodeIdx) (p : PointIdx) (f : Claim → Claim) : (s.mapClaim n p f).resetLow = s.resetLow := rfl
@[simp] theorem mapClaim_freeIndex (n : NodeIdx) (p : PointIdx) (f : Claim → Claim) : (s.mapClaim n p f).freeIndex = s.freeIndex := rfl
@[simp] theorem mapClaim_pending (n : NodeIdx) (p : PointIdx) (f : Claim → Claim) : (s.mapClaim n p f).pending = s.pending := rfl

/-! ### State.dropClaim -/

@[simp] theorem dropClaim_nodes (n : NodeIdx) (p : PointIdx) : (s.dropClaim n p).nodes = s.nodes := rfl
@[simp] theorem dropClaim_tp (n : NodeIdx) (p : PointIdx) : (s.dropClaim n p).tp = s.tp := rfl
@[simp] theorem dropClaim_pou (n : NodeIdx) (p : PointIdx) : (s.dropClaim n p).pou = s.pou := rfl
@[simp] theorem dropClaim_rs (n : NodeIdx) (p : PointIdx) : (s.dropClaim n p).rs = s.rs := rfl
@[simp] theorem dropClaim_stages (n : NodeIdx) (p : PointIdx) : (s.dropClaim n p).stages = s.stages := rfl
@[simp] theorem dropClaim_ce (n : NodeIdx) (p : PointIdx) : (s.dropClaim n p).ce = s.ce := rfl
@[simp] theorem dropClaim_dbc (n : NodeIdx) (p : PointIdx) : (s.dropClaim n p).dbc = s.dbc := rfl
@[simp] theorem dropClaim_exq (n : NodeIdx) (p : PointIdx) : (s.dropClaim n p).exq = s.exq := rfl
@[simp] theorem dropClaim_counters (n : NodeIdx) (p : PointIdx) : (s.dropClaim n p).counters = s.counters := rfl
@[simp] theorem dropClaim_mode (n : NodeIdx) (p : PointIdx) : (s.dropClaim n p).mode = s.mode := rfl
@[simp] theorem dropClaim_params (n : NodeIdx) (p : PointIdx) : (s.dropClaim n p).params = s.params := rfl
@[simp] theorem dropClaim_resetLow (n : NodeIdx) (p : PointIdx) : (s.dropClaim n p).resetLow = s.resetLow := rfl
@[simp] theorem dropClaim_freeIndex (n : NodeIdx) (p : PointIdx) : (s.dropClaim n p).freeIndex = s.freeIndex := rfl
@[simp] theorem dropClaim_pending (n : NodeIdx) (p : PointIdx) : (s.dropClaim n p).pending = s.pending := rfl

/-! ### State.ageClaims -/

@[simp] theorem ageClaims_nodes : s.ageClaims.nodes = s.nodes := rfl
@[simp] theorem ageClaims_tp : s.ageClaims.tp = s.tp := rfl
@[simp] theorem ageClaims_pou : s.ageClaims.pou = s.pou := rfl
@[simp] theorem ageClaims_rs : s.ageClaims.rs = s.rs := rfl
@[simp] theorem ageClaims_stages : s.ageClaims.stages = s.stages := rfl
@[simp] theorem ageClaims_ce : s.ageClaims.ce = s.ce := rfl
@[simp] theorem ageClaims_dbc : s.ageClaims.dbc = s.dbc := rfl
@[simp] theorem ageClaims_exq : s.ageClaims.exq = s.exq := rfl
@[simp] theorem ageClaims_counters : s.ageClaims.counters = s.counters := rfl
@[simp] theorem ageClaims_mode : s.ageClaims.mode = s.mode := rfl
@[simp] theorem ageClaims_params : s.ageClaims.params = s.params := rfl
@[simp] theorem ageClaims_resetLow : s.ageClaims.resetLow = s.resetLow := rfl
@[simp] theorem ageClaims_freeIndex : s.ageClaims.freeIndex = s.freeIndex := rfl
@[simp] theorem ageClaims_pending : s.ageClaims.pending = s.pending := rfl

/-! ### State.setStage -/

@[simp] theorem setStage_nodes (o : Originator) (g : Stage) : (s.setStage o g).nodes = s.nodes := rfl
@[simp] theorem setStage_tp (o : Originator) (g : Stage) : (s.setStage o g).tp = s.tp := rfl
@[simp] theorem setStage_pou (o : Originator) (g : Stage) : (s.setStage o g).pou = s.pou := rfl
@[simp] theorem setStage_rs (o : Originator) (g : Stage) : (s.setStage o g).rs = s.rs := rfl
@[simp] theorem setStage_claims (o : Originator) (g : Stage) : (s.setStage o g).claims = s.claims := rfl
@[simp] theorem setStage_ce (o : Originator) (g : Stage) : (s.setStage o g).ce = s.ce := rfl
@[simp] theorem setStage_dbc (o : Originator) (g : Stage) : (s.setStage o g).dbc = s.dbc := rfl
@[simp] theorem setStage_exq (o : Originator) (g : Stage) : (s.setStage o g).exq = s.exq := rfl
@[simp] theorem setStage_counters (o : Originator) (g : Stage) : (s.setStage o g).counters = s.counters := rfl
@[simp] theorem setStage_mode (o : Originator) (g : Stage) : (s.setStage o g).mode = s.mode := rfl
@[simp] theorem setStage_params (o : Originator) (g : Stage) : (s.setStage o g).params = s.params := rfl
@[simp] theorem setStage_resetLow (o : Originator) (g : Stage) : (s.setStage o g).resetLow = s.resetLow := rfl
@[simp] theorem setStage_freeIndex (o : Originator) (g : Stage) : (s.setStage o g).freeIndex = s.freeIndex := rfl
@[simp] theorem setStage_pending (o : Originator) (g : Stage) : (s.setStage o g).pending = s.pending := rfl

/-! ### State.closeStage -/

@[simp] theorem closeStage_nodes (o : Originator) : (s.closeStage o).nodes = s.nodes := rfl
@[simp] theorem closeStage_tp (o : Originator) : (s.closeStage o).tp = s.tp := rfl
@[simp] theorem closeStage_pou (o : Originator) : (s.closeStage o).pou = s.pou := rfl
@[simp] theorem closeStage_rs (o : Originator) : (s.closeStage o).rs = s.rs := rfl
@[simp] theorem closeStage_claims (o : Originator) : (s.closeStage o).claims = s.claims := rfl
@[simp] theorem closeStage_ce (o : Originator) : (s.closeStage o).ce = s.ce := rfl
@[simp] theorem closeStage_dbc (o : Originator) : (s.closeStage o).dbc = s.dbc := rfl
@[simp] theorem closeStage_exq (o : Originator) : (s.closeStage o).exq = s.exq := rfl
@[simp] theorem closeStage_counters (o : Originator) : (s.closeStage o).counters = s.counters := rfl
@[simp] theorem closeStage_mode (o : Originator) : (s.closeStage o).mode = s.mode := rfl
@[simp] theorem closeStage_params (o : Originator) : (s.closeStage o).params = s.params := rfl
@[simp] theorem closeStage_resetLow (o : Originator) : (s.closeStage o).resetLow = s.resetLow := rfl
@[simp] theorem closeStage_freeIndex (o : Originator) : (s.closeStage o).freeIndex = s.freeIndex := rfl
@[simp] theorem closeStage_pending (o : Originator) : (s.closeStage o).pending = s.pending := rfl

/-! ### State.closeOpen -/

@[simp] theorem closeOpen_nodes : s.closeOpen.nodes = s.nodes := rfl
@[simp] theorem closeOpen_tp : s.closeOpen.tp = s.tp := rfl
@[simp] theorem closeOpen_pou : s.closeOpen.pou = s.pou := rfl
@[simp] theorem closeOpen_rs : s.closeOpen.rs = s.rs := rfl
@[simp] theorem closeOpen_claims : s.closeOpen.claims = s.claims := rfl
@[simp] theorem closeOpen_ce : s.closeOpen.ce = s.ce := rfl
@[simp] theorem closeOpen_dbc : s.closeOpen.dbc = s.dbc := rfl
@[simp] theorem closeOpen_exq : s.closeOpen.exq = s.exq := rfl
@[simp] theorem closeOpen_counters : s.closeOpen.counters = s.counters := rfl
@[simp] theorem closeOpen_mode : s.closeOpen.mode = s.mode := rfl
@[simp] theorem closeOpen_params : s.closeOpen.params = s.params := rfl
@[simp] theorem closeOpen_resetLow : s.closeOpen.resetLow = s.resetLow := rfl
@[simp] theorem closeOpen_freeIndex : s.closeOpen.freeIndex = s.freeIndex := rfl
@[simp] theorem closeOpen_pending : s.closeOpen.pending = s.pending := rfl

/-! ### State.ageStages -/

@[simp] theorem ageStages_nodes : s.ageStages.nodes = s.nodes := rfl
@[simp] theorem ageStages_tp : s.ageStages.tp = s.tp := rfl
@[simp] theorem ageStages_pou : s.ageStages.pou = s.pou := rfl
@[simp] theorem ageStages_rs : s.ageStages.rs = s.rs := rfl
@[simp] theorem ageStages_claims : s.ageStages.claims = s.claims := rfl
@[simp] theorem ageStages_ce : s.ageStages.ce = s.ce := rfl
@[simp] theorem ageStages_dbc : s.ageStages.dbc = s.dbc := rfl
@[simp] theorem ageStages_exq : s.ageStages.exq = s.exq := rfl
@[simp] theorem ageStages_counters : s.ageStages.counters = s.counters := rfl
@[simp] theorem ageStages_mode : s.ageStages.mode = s.mode := rfl
@[simp] theorem ageStages_params : s.ageStages.params = s.params := rfl
@[simp] theorem ageStages_resetLow : s.ageStages.resetLow = s.resetLow := rfl
@[simp] theorem ageStages_freeIndex : s.ageStages.freeIndex = s.freeIndex := rfl
@[simp] theorem ageStages_pending : s.ageStages.pending = s.pending := rfl

/-! ### State.queueStage -/

@[simp] theorem queueStage_nodes (o : Originator) (tag : Byte) : (s.queueStage o tag).nodes = s.nodes := rfl
@[simp] theorem queueStage_tp (o : Originator) (tag : Byte) : (s.queueStage o tag).tp = s.tp := rfl
@[simp] theorem queueStage_pou (o : Originator) (tag : Byte) : (s.queueStage o tag).pou = s.pou := rfl
@[simp] theorem queueStage_rs (o : Originator) (tag : Byte) : (s.queueStage o tag).rs = s.rs := rfl
@[simp] theorem queueStage_claims (o : Originator) (tag : Byte) : (s.queueStage o tag).claims = s.claims := rfl
@[simp] theorem queueStage_dbc (o : Originator) (tag : Byte) : (s.queueStage o tag).dbc = s.dbc := rfl
@[simp] theorem queueStage_exq (o : Originator) (tag : Byte) : (s.queueStage o tag).exq = s.exq := rfl
@[simp] theorem queueStage_counters (o : Originator) (tag : Byte) : (s.queueStage o tag).counters = s.counters := rfl
@[simp] theorem queueStage_mode (o : Originator) (tag : Byte) : (s.queueStage o tag).mode = s.mode := rfl
@[simp] theorem queueStage_params (o : Originator) (tag : Byte) : (s.queueStage o tag).params = s.params := rfl
@[simp] theorem queueStage_resetLow (o : Originator) (tag : Byte) : (s.queueStage o tag).resetLow = s.resetLow := rfl
@[simp] theorem queueStage_freeIndex (o : Originator) (tag : Byte) : (s.queueStage o tag).freeIndex = s.freeIndex := rfl
@[simp] theorem queueStage_pending (o : Originator) (tag : Byte) : (s.queueStage o tag).pending = s.pending := rfl

/-! ### State.freeBus -/

@[simp] theorem freeBus_nodes : s.freeBus.nodes = s.nodes := rfl
@[simp] theorem freeBus_tp : s.freeBus.tp = s.tp := rfl
@[simp] theorem freeBus_pou : s.freeBus.pou = s.pou := rfl
@[simp] theorem freeBus_rs : s.freeBus.rs = s.rs := rfl
@[simp] theorem freeBus_claims : s.freeBus.claims = s.claims := rfl
@[simp] theorem freeBus_stages : s.freeBus.stages = s.stages := rfl
@[simp] theorem freeBus_ce : s.freeBus.ce = s.ce := rfl
@[simp] theorem freeBus_exq : s.freeBus.exq = s.exq := rfl
@[simp] theorem freeBus_counters : s.freeBus.counters = s.counters := rfl
@[simp] theorem freeBus_mode : s.freeBus.mode = s.mode := rfl
@[simp] theorem freeBus_params : s.freeBus.params = s.params := rfl
@[simp] theorem freeBus_resetLow : s.freeBus.resetLow = s.resetLow := rfl
@[simp] theorem freeBus_freeIndex : s.freeBus.freeIndex = s.freeIndex := rfl
@[simp] theorem freeBus_pending : s.freeBus.pending = s.pending := rfl

/-! ### State.startUni -/

@[simp] theorem startUni_nodes (n : NodeIdx) (f : UniFrame) : (s.startUni n f).nodes = s.nodes := rfl
@[simp] theorem startUni_tp (n : NodeIdx) (f : UniFrame) : (s.startUni n f).tp = s.tp := rfl
@[simp] theorem startUni_pou (n : NodeIdx) (f : UniFrame) : (s.startUni n f).pou = s.pou := rfl
@[simp] theorem startUni_rs (n : NodeIdx) (f : UniFrame) : (s.startUni n f).rs = s.rs := rfl
@[simp] theorem startUni_claims (n : NodeIdx) (f : UniFrame) : (s.startUni n f).claims = s.claims := rfl
@[simp] theorem startUni_stages (n : NodeIdx) (f : UniFrame) : (s.startUni n f).stages = s.stages := rfl
@[simp] theorem startUni_ce (n : NodeIdx) (f : UniFrame) : (s.startUni n f).ce = s.ce := rfl
@[simp] theorem startUni_exq (n : NodeIdx) (f : UniFrame) : (s.startUni n f).exq = s.exq := rfl
@[simp] theorem startUni_counters (n : NodeIdx) (f : UniFrame) : (s.startUni n f).counters = s.counters := rfl
@[simp] theorem startUni_mode (n : NodeIdx) (f : UniFrame) : (s.startUni n f).mode = s.mode := rfl
@[simp] theorem startUni_params (n : NodeIdx) (f : UniFrame) : (s.startUni n f).params = s.params := rfl
@[simp] theorem startUni_resetLow (n : NodeIdx) (f : UniFrame) : (s.startUni n f).resetLow = s.resetLow := rfl
@[simp] theorem startUni_freeIndex (n : NodeIdx) (f : UniFrame) : (s.startUni n f).freeIndex = s.freeIndex := rfl
@[simp] theorem startUni_pending (n : NodeIdx) (f : UniFrame) : (s.startUni n f).pending = s.pending := rfl

/-! ### State.startBroad -/

@[simp] theorem startBroad_nodes (f : BroadFrame) : (s.startBroad f).nodes = s.nodes := rfl
@[simp] theorem startBroad_tp (f : BroadFrame) : (s.startBroad f).tp = s.tp := rfl
@[simp] theorem startBroad_pou (f : BroadFrame) : (s.startBroad f).pou = s.pou := rfl
@[simp] theorem startBroad_rs (f : BroadFrame) : (s.startBroad f).rs = s.rs := rfl
@[simp] theorem startBroad_claims (f : BroadFrame) : (s.startBroad f).claims = s.claims := rfl
@[simp] theorem startBroad_stages (f : BroadFrame) : (s.startBroad f).stages = s.stages := rfl
@[simp] theorem startBroad_ce (f : BroadFrame) : (s.startBroad f).ce = s.ce := rfl
@[simp] theorem startBroad_exq (f : BroadFrame) : (s.startBroad f).exq = s.exq := rfl
@[simp] theorem startBroad_counters (f : BroadFrame) : (s.startBroad f).counters = s.counters := rfl
@[simp] theorem startBroad_mode (f : BroadFrame) : (s.startBroad f).mode = s.mode := rfl
@[simp] theorem startBroad_params (f : BroadFrame) : (s.startBroad f).params = s.params := rfl
@[simp] theorem startBroad_resetLow (f : BroadFrame) : (s.startBroad f).resetLow = s.resetLow := rfl
@[simp] theorem startBroad_freeIndex (f : BroadFrame) : (s.startBroad f).freeIndex = s.freeIndex := rfl
@[simp] theorem startBroad_pending (f : BroadFrame) : (s.startBroad f).pending = s.pending := rfl

/-! ### State.bookGrant -/

@[simp] theorem bookGrant_nodes (r : Requester) (st : GrantStep) : (s.bookGrant r st).nodes = s.nodes := rfl
@[simp] theorem bookGrant_tp (r : Requester) (st : GrantStep) : (s.bookGrant r st).tp = s.tp := rfl
@[simp] theorem bookGrant_pou (r : Requester) (st : GrantStep) : (s.bookGrant r st).pou = s.pou := rfl
@[simp] theorem bookGrant_rs (r : Requester) (st : GrantStep) : (s.bookGrant r st).rs = s.rs := rfl
@[simp] theorem bookGrant_claims (r : Requester) (st : GrantStep) : (s.bookGrant r st).claims = s.claims := rfl
@[simp] theorem bookGrant_stages (r : Requester) (st : GrantStep) : (s.bookGrant r st).stages = s.stages := rfl
@[simp] theorem bookGrant_ce (r : Requester) (st : GrantStep) : (s.bookGrant r st).ce = s.ce := rfl
@[simp] theorem bookGrant_exq (r : Requester) (st : GrantStep) : (s.bookGrant r st).exq = s.exq := rfl
@[simp] theorem bookGrant_counters (r : Requester) (st : GrantStep) : (s.bookGrant r st).counters = s.counters := rfl
@[simp] theorem bookGrant_mode (r : Requester) (st : GrantStep) : (s.bookGrant r st).mode = s.mode := rfl
@[simp] theorem bookGrant_params (r : Requester) (st : GrantStep) : (s.bookGrant r st).params = s.params := rfl
@[simp] theorem bookGrant_resetLow (r : Requester) (st : GrantStep) : (s.bookGrant r st).resetLow = s.resetLow := rfl
@[simp] theorem bookGrant_freeIndex (r : Requester) (st : GrantStep) : (s.bookGrant r st).freeIndex = s.freeIndex := rfl
@[simp] theorem bookGrant_pending (r : Requester) (st : GrantStep) : (s.bookGrant r st).pending = s.pending := rfl

/-! ### State.setParams -/

@[simp] theorem setParams_nodes (items : List (ParamId × Byte)) : (s.setParams items).nodes = s.nodes := rfl
@[simp] theorem setParams_tp (items : List (ParamId × Byte)) : (s.setParams items).tp = s.tp := rfl
@[simp] theorem setParams_pou (items : List (ParamId × Byte)) : (s.setParams items).pou = s.pou := rfl
@[simp] theorem setParams_rs (items : List (ParamId × Byte)) : (s.setParams items).rs = s.rs := rfl
@[simp] theorem setParams_claims (items : List (ParamId × Byte)) : (s.setParams items).claims = s.claims := rfl
@[simp] theorem setParams_stages (items : List (ParamId × Byte)) : (s.setParams items).stages = s.stages := rfl
@[simp] theorem setParams_ce (items : List (ParamId × Byte)) : (s.setParams items).ce = s.ce := rfl
@[simp] theorem setParams_exq (items : List (ParamId × Byte)) : (s.setParams items).exq = s.exq := rfl
@[simp] theorem setParams_counters (items : List (ParamId × Byte)) : (s.setParams items).counters = s.counters := rfl
@[simp] theorem setParams_mode (items : List (ParamId × Byte)) : (s.setParams items).mode = s.mode := rfl
@[simp] theorem setParams_resetLow (items : List (ParamId × Byte)) : (s.setParams items).resetLow = s.resetLow := rfl
@[simp] theorem setParams_freeIndex (items : List (ParamId × Byte)) : (s.setParams items).freeIndex = s.freeIndex := rfl
@[simp] theorem setParams_pending (items : List (ParamId × Byte)) : (s.setParams items).pending = s.pending := rfl

/-! ### State.advancePhase -/

@[simp] theorem advancePhase_nodes : s.advancePhase.nodes = s.nodes := rfl
@[simp] theorem advancePhase_tp : s.advancePhase.tp = s.tp := rfl
@[simp] theorem advancePhase_pou : s.advancePhase.pou = s.pou := rfl
@[simp] theorem advancePhase_claims : s.advancePhase.claims = s.claims := rfl
@[simp] theorem advancePhase_stages : s.advancePhase.stages = s.stages := rfl
@[simp] theorem advancePhase_ce : s.advancePhase.ce = s.ce := rfl
@[simp] theorem advancePhase_dbc : s.advancePhase.dbc = s.dbc := rfl
@[simp] theorem advancePhase_exq : s.advancePhase.exq = s.exq := rfl
@[simp] theorem advancePhase_counters : s.advancePhase.counters = s.counters := rfl
@[simp] theorem advancePhase_mode : s.advancePhase.mode = s.mode := rfl
@[simp] theorem advancePhase_params : s.advancePhase.params = s.params := rfl
@[simp] theorem advancePhase_resetLow : s.advancePhase.resetLow = s.resetLow := rfl
@[simp] theorem advancePhase_freeIndex : s.advancePhase.freeIndex = s.freeIndex := rfl
@[simp] theorem advancePhase_pending : s.advancePhase.pending = s.pending := rfl

/-! ### State.advanceTimers -/

@[simp] theorem advanceTimers_nodes : s.advanceTimers.nodes = s.nodes := rfl
@[simp] theorem advanceTimers_tp : s.advanceTimers.tp = s.tp := rfl
@[simp] theorem advanceTimers_pou : s.advanceTimers.pou = s.pou := rfl
@[simp] theorem advanceTimers_claims : s.advanceTimers.claims = s.claims := rfl
@[simp] theorem advanceTimers_stages : s.advanceTimers.stages = s.stages := rfl
@[simp] theorem advanceTimers_ce : s.advanceTimers.ce = s.ce := rfl
@[simp] theorem advanceTimers_exq : s.advanceTimers.exq = s.exq := rfl
@[simp] theorem advanceTimers_counters : s.advanceTimers.counters = s.counters := rfl
@[simp] theorem advanceTimers_mode : s.advanceTimers.mode = s.mode := rfl
@[simp] theorem advanceTimers_params : s.advanceTimers.params = s.params := rfl
@[simp] theorem advanceTimers_resetLow : s.advanceTimers.resetLow = s.resetLow := rfl
@[simp] theorem advanceTimers_freeIndex : s.advanceTimers.freeIndex = s.freeIndex := rfl
@[simp] theorem advanceTimers_pending : s.advanceTimers.pending = s.pending := rfl

/-! ### State.runEntry -/

@[simp] theorem runEntry_tp : s.runEntry.tp = s.tp := rfl
@[simp] theorem runEntry_pou : s.runEntry.pou = s.pou := rfl
@[simp] theorem runEntry_rs : s.runEntry.rs = s.rs := rfl
@[simp] theorem runEntry_claims : s.runEntry.claims = s.claims := rfl
@[simp] theorem runEntry_stages : s.runEntry.stages = s.stages := rfl
@[simp] theorem runEntry_dbc : s.runEntry.dbc = s.dbc := rfl
@[simp] theorem runEntry_exq : s.runEntry.exq = s.exq := rfl
@[simp] theorem runEntry_counters : s.runEntry.counters = s.counters := rfl
@[simp] theorem runEntry_params : s.runEntry.params = s.params := rfl
@[simp] theorem runEntry_resetLow : s.runEntry.resetLow = s.resetLow := rfl
@[simp] theorem runEntry_freeIndex : s.runEntry.freeIndex = s.freeIndex := rfl
@[simp] theorem runEntry_pending : s.runEntry.pending = s.pending := rfl

/-! ### What is written -/

@[simp] theorem raise_flags (f : NoticeFlag) : (s.raise f).exq.flags = s.exq.flags ||| f.bit := rfl
@[simp] theorem raise_mask (f : NoticeFlag) : (s.raise f).exq.mask = s.exq.mask := rfl
@[simp] theorem raise_queue (f : NoticeFlag) : (s.raise f).exq.queue = s.exq.queue := rfl
@[simp] theorem enqueue_queue (f : TrunkFrame) : (s.enqueue f).tp.queue = s.tp.queue ++ [f] := rfl
@[simp] theorem enqueue_closing (f : TrunkFrame) : (s.enqueue f).tp.closing = s.tp.closing := rfl
@[simp] theorem enqueue_pause (f : TrunkFrame) :
    (s.enqueue f).tp.pause = (s.tp.pause || s.tp.queue.length + 1 == 24) := rfl
@[simp] theorem freeBus_txn : s.freeBus.dbc.txn = none := rfl
@[simp] theorem freeBus_idleTimer : s.freeBus.dbc.idleTimer = 0 := rfl
@[simp] theorem freeBus_rotation : s.freeBus.dbc.rotation = s.dbc.rotation := rfl
@[simp] theorem freeBus_lead : s.freeBus.dbc.lead = s.dbc.lead := rfl
@[simp] theorem freeBus_yieldMarker : s.freeBus.dbc.yieldMarker = s.dbc.yieldMarker := rfl
@[simp] theorem startBroad_txn (f : BroadFrame) : (s.startBroad f).dbc.txn = some (.broad f) := rfl
@[simp] theorem startUni_txn (n : NodeIdx) (f : UniFrame) :
    (s.startUni n f).dbc.txn = some (.uni
      { node := n, frame := f, window := s.params.replyWindowCode, cond := .transmitting,
        windowLeft := 0 }) := rfl
@[simp] theorem bookGrant_txn (r : Requester) (st : GrantStep) :
    (s.bookGrant r st).dbc.txn = s.dbc.txn := rfl
@[simp] theorem bookGrant_idleTimer (r : Requester) (st : GrantStep) :
    (s.bookGrant r st).dbc.idleTimer = s.dbc.idleTimer := rfl
@[simp] theorem bookGrant_yieldMarker (r : Requester) (st : GrantStep) :
    (s.bookGrant r st).dbc.yieldMarker = (r == .cmt) := rfl
@[simp] theorem queueStage_queue (o : Originator) (tag : Byte) :
    (s.queueStage o tag).ce.queue = s.ce.queue ++ [o] := rfl
@[simp] theorem queueStage_commit (o : Originator) (tag : Byte) :
    (s.queueStage o tag).ce.commit = s.ce.commit := rfl
@[simp] theorem queueStage_clearOwed (o : Originator) (tag : Byte) :
    (s.queueStage o tag).ce.clearOwed = s.ce.clearOwed := rfl
@[simp] theorem runEntry_mode : s.runEntry.mode = .run := rfl
@[simp] theorem runEntry_clearOwed : s.runEntry.ce.clearOwed = true := rfl

theorem node_setNode (n m : NodeIdx) (e : NodeEntry) :
    (s.setNode n e).node m = if n = m then e else s.node m := by
  simp [State.node, State.setNode, Vector.getElem_set, Fin.ext_iff]

@[simp] theorem node_setNode_self (n : NodeIdx) (e : NodeEntry) : (s.setNode n e).node n = e := by
  simp [node_setNode]

theorem node_setNode_of_ne {n m : NodeIdx} (e : NodeEntry) (h : n ≠ m) :
    (s.setNode n e).node m = s.node m := by
  simp [node_setNode, h]

theorem point_setPoint (e : NodeEntry) (p q : PointIdx) (r : PointRec) :
    (e.setPoint p r).point q = if p = q then r else e.point q := by
  simp [NodeEntry.point, NodeEntry.setPoint, Vector.getElem_set, Fin.ext_iff]

/-- The whole shadow after one point record is replaced. -/
theorem statePoint_setPoint (n m : NodeIdx) (p q : PointIdx) (r : PointRec) :
    (s.setPoint n p r).point m q = if n = m ∧ p = q then r else s.point m q := by
  unfold State.setPoint State.point
  rw [node_setNode]
  by_cases h : n = m
  · subst h; simp [point_setPoint]
  · simp [h]

theorem stage_setStage (o o' : Originator) (g : Stage) :
    (s.setStage o g).stage o' = if o = o' then g else s.stage o' := by
  simp [State.stage, State.setStage, Vector.getElem_set, Fin.ext_iff]

@[simp] theorem stage_setStage_self (o : Originator) (g : Stage) : (s.setStage o g).stage o = g := by
  simp [stage_setStage]

theorem node_wakeAll (n : NodeIdx) :
    s.wakeAll.node n = wakeEntry s.params.wakeDebits (s.node n) := by
  simp [State.node, State.wakeAll]

theorem stage_closeOpen (o : Originator) :
    s.closeOpen.stage o = if (s.stage o).state = .opened then {} else s.stage o := by
  simp [State.stage, State.closeOpen]
  rfl

theorem stage_ageStages (o : Originator) : s.ageStages.stage o = (s.stage o).aged := by
  simp [State.stage, State.ageStages]

/-! ### The full reset -/

@[simp] theorem fullReset_resetLow : s.fullReset.resetLow = s.resetLow := rfl
@[simp] theorem fullReset_freeIndex : s.fullReset.freeIndex = s.freeIndex := rfl
@[simp] theorem fullReset_pending : s.fullReset.pending = s.pending := rfl
@[simp] theorem fullReset_nodes : s.fullReset.nodes = State.reset.nodes := rfl
@[simp] theorem fullReset_tp : s.fullReset.tp = {} := rfl
@[simp] theorem fullReset_pou : s.fullReset.pou = {} := rfl
@[simp] theorem fullReset_rs : s.fullReset.rs = {} := rfl
@[simp] theorem fullReset_claims : s.fullReset.claims = [] := rfl
@[simp] theorem fullReset_stages : s.fullReset.stages = State.reset.stages := rfl
@[simp] theorem fullReset_ce : s.fullReset.ce = {} := rfl
@[simp] theorem fullReset_dbc : s.fullReset.dbc = {} := rfl
@[simp] theorem fullReset_exq : s.fullReset.exq = {} := rfl
@[simp] theorem fullReset_counters : s.fullReset.counters = {} := rfl
@[simp] theorem fullReset_mode : s.fullReset.mode = .halted := rfl
@[simp] theorem fullReset_params : s.fullReset.params = {} := rfl

@[simp] theorem node_fullReset (n : NodeIdx) : s.fullReset.node n = {} := by
  simp [State.node, State.reset]

@[simp] theorem stage_fullReset (o : Originator) : s.fullReset.stage o = {} := by
  simp [State.stage, State.reset]

end Sys2Proof.Machine
end

