-- ==== Sys2Proof/Laws/Frames.lean ====
section
/-! SUPPORT. What the operations with cases leave alone, one simp lemma per operation and field. -/

namespace Sys2Proof.Machine

/-- What no step of a fold changes, the fold does not change. -/
theorem foldl_keeps {α β : Type} (f : State → α → State) (proj : State → β)
    (h : ∀ s a, proj (f s a) = proj s) (l : List α) : ∀ s, proj (l.foldl f s) = proj s := by
  induction l with
  | nil => exact fun _ => rfl
  | cons a l ih => exact fun s => (ih (f s a)).trans (h s a)

variable (s : State)

/-! ### count -/

@[simp] theorem count_nodes (c : Counter) : (s.count c).nodes = s.nodes :=
  by unfold State.count; dsimp only; split <;> rfl
@[simp] theorem count_tp (c : Counter) : (s.count c).tp = s.tp :=
  by unfold State.count; dsimp only; split <;> rfl
@[simp] theorem count_pou (c : Counter) : (s.count c).pou = s.pou :=
  by unfold State.count; dsimp only; split <;> rfl
@[simp] theorem count_rs (c : Counter) : (s.count c).rs = s.rs :=
  by unfold State.count; dsimp only; split <;> rfl
@[simp] theorem count_claims (c : Counter) : (s.count c).claims = s.claims :=
  by unfold State.count; dsimp only; split <;> rfl
@[simp] theorem count_stages (c : Counter) : (s.count c).stages = s.stages :=
  by unfold State.count; dsimp only; split <;> rfl
@[simp] theorem count_ce (c : Counter) : (s.count c).ce = s.ce :=
  by unfold State.count; dsimp only; split <;> rfl
@[simp] theorem count_dbc (c : Counter) : (s.count c).dbc = s.dbc :=
  by unfold State.count; dsimp only; split <;> rfl
@[simp] theorem count_mode (c : Counter) : (s.count c).mode = s.mode :=
  by unfold State.count; dsimp only; split <;> rfl
@[simp] theorem count_params (c : Counter) : (s.count c).params = s.params :=
  by unfold State.count; dsimp only; split <;> rfl
@[simp] theorem count_resetLow (c : Counter) : (s.count c).resetLow = s.resetLow :=
  by unfold State.count; dsimp only; split <;> rfl
@[simp] theorem count_freeIndex (c : Counter) : (s.count c).freeIndex = s.freeIndex :=
  by unfold State.count; dsimp only; split <;> rfl
@[simp] theorem count_pending (c : Counter) : (s.count c).pending = s.pending :=
  by unfold State.count; dsimp only; split <;> rfl
@[simp] theorem count_exq_queue (c : Counter) : (s.count c).exq.queue = s.exq.queue :=
  by unfold State.count; dsimp only; split <;> rfl
@[simp] theorem count_exq_mask (c : Counter) : (s.count c).exq.mask = s.exq.mask :=
  by unfold State.count; dsimp only; split <;> rfl

/-! ### respond -/

@[simp] theorem respond_nodes (r : Response) : (s.respond r).nodes = s.nodes :=
  by unfold State.respond; split_ifs <;> simp
@[simp] theorem respond_pou (r : Response) : (s.respond r).pou = s.pou :=
  by unfold State.respond; split_ifs <;> simp
@[simp] theorem respond_rs (r : Response) : (s.respond r).rs = s.rs :=
  by unfold State.respond; split_ifs <;> simp
@[simp] theorem respond_claims (r : Response) : (s.respond r).claims = s.claims :=
  by unfold State.respond; split_ifs <;> simp
@[simp] theorem respond_stages (r : Response) : (s.respond r).stages = s.stages :=
  by unfold State.respond; split_ifs <;> simp
@[simp] theorem respond_ce (r : Response) : (s.respond r).ce = s.ce :=
  by unfold State.respond; split_ifs <;> simp
@[simp] theorem respond_dbc (r : Response) : (s.respond r).dbc = s.dbc :=
  by unfold State.respond; split_ifs <;> simp
@[simp] theorem respond_mode (r : Response) : (s.respond r).mode = s.mode :=
  by unfold State.respond; split_ifs <;> simp
@[simp] theorem respond_params (r : Response) : (s.respond r).params = s.params :=
  by unfold State.respond; split_ifs <;> simp
@[simp] theorem respond_resetLow (r : Response) : (s.respond r).resetLow = s.resetLow :=
  by unfold State.respond; split_ifs <;> simp
@[simp] theorem respond_freeIndex (r : Response) : (s.respond r).freeIndex = s.freeIndex :=
  by unfold State.respond; split_ifs <;> simp
@[simp] theorem respond_pending (r : Response) : (s.respond r).pending = s.pending :=
  by unfold State.respond; split_ifs <;> simp
@[simp] theorem respond_exq_queue (r : Response) : (s.respond r).exq.queue = s.exq.queue :=
  by unfold State.respond; split_ifs <;> simp
@[simp] theorem respond_exq_mask (r : Response) : (s.respond r).exq.mask = s.exq.mask :=
  by unfold State.respond; split_ifs <;> simp
@[simp] theorem respond_tp_closing (r : Response) : (s.respond r).tp.closing = s.tp.closing :=
  by unfold State.respond; split_ifs <;> simp

/-! ### closeEvent -/

@[simp] theorem closeEvent_nodes (b : State) : (closeEvent b s).nodes = s.nodes :=
  by unfold closeEvent; split_ifs <;> simp
@[simp] theorem closeEvent_pou (b : State) : (closeEvent b s).pou = s.pou :=
  by unfold closeEvent; split_ifs <;> simp
@[simp] theorem closeEvent_rs (b : State) : (closeEvent b s).rs = s.rs :=
  by unfold closeEvent; split_ifs <;> simp
@[simp] theorem closeEvent_claims (b : State) : (closeEvent b s).claims = s.claims :=
  by unfold closeEvent; split_ifs <;> simp
@[simp] theorem closeEvent_stages (b : State) : (closeEvent b s).stages = s.stages :=
  by unfold closeEvent; split_ifs <;> simp
@[simp] theorem closeEvent_ce (b : State) : (closeEvent b s).ce = s.ce :=
  by unfold closeEvent; split_ifs <;> simp
@[simp] theorem closeEvent_dbc (b : State) : (closeEvent b s).dbc = s.dbc :=
  by unfold closeEvent; split_ifs <;> simp
@[simp] theorem closeEvent_exq (b : State) : (closeEvent b s).exq = s.exq :=
  by unfold closeEvent; split_ifs <;> simp
@[simp] theorem closeEvent_counters (b : State) : (closeEvent b s).counters = s.counters :=
  by unfold closeEvent; split_ifs <;> simp
@[simp] theorem closeEvent_mode (b : State) : (closeEvent b s).mode = s.mode :=
  by unfold closeEvent; split_ifs <;> simp
@[simp] theorem closeEvent_params (b : State) : (closeEvent b s).params = s.params :=
  by unfold closeEvent; split_ifs <;> simp
@[simp] theorem closeEvent_resetLow (b : State) : (closeEvent b s).resetLow = s.resetLow :=
  by unfold closeEvent; split_ifs <;> simp
@[simp] theorem closeEvent_freeIndex (b : State) : (closeEvent b s).freeIndex = s.freeIndex :=
  by unfold closeEvent; split_ifs <;> simp
@[simp] theorem closeEvent_pending (b : State) : (closeEvent b s).pending = s.pending :=
  by unfold closeEvent; split_ifs <;> simp
@[simp] theorem closeEvent_tp_closing (b : State) : (closeEvent b s).tp.closing = s.tp.closing :=
  by unfold closeEvent; split_ifs <;> simp

/-! ### answer -/

@[simp] theorem answer_nodes (b : State) (r : Response) : (answer b r s).nodes = s.nodes :=
  by simp [answer]
@[simp] theorem answer_pou (b : State) (r : Response) : (answer b r s).pou = s.pou :=
  by simp [answer]
@[simp] theorem answer_rs (b : State) (r : Response) : (answer b r s).rs = s.rs :=
  by simp [answer]
@[simp] theorem answer_claims (b : State) (r : Response) : (answer b r s).claims = s.claims :=
  by simp [answer]
@[simp] theorem answer_stages (b : State) (r : Response) : (answer b r s).stages = s.stages :=
  by simp [answer]
@[simp] theorem answer_ce (b : State) (r : Response) : (answer b r s).ce = s.ce :=
  by simp [answer]
@[simp] theorem answer_dbc (b : State) (r : Response) : (answer b r s).dbc = s.dbc :=
  by simp [answer]
@[simp] theorem answer_mode (b : State) (r : Response) : (answer b r s).mode = s.mode :=
  by simp [answer]
@[simp] theorem answer_params (b : State) (r : Response) : (answer b r s).params = s.params :=
  by simp [answer]
@[simp] theorem answer_resetLow (b : State) (r : Response) : (answer b r s).resetLow = s.resetLow :=
  by simp [answer]
@[simp] theorem answer_freeIndex (b : State) (r : Response) : (answer b r s).freeIndex = s.freeIndex :=
  by simp [answer]
@[simp] theorem answer_pending (b : State) (r : Response) : (answer b r s).pending = s.pending :=
  by simp [answer]
@[simp] theorem answer_exq_queue (b : State) (r : Response) : (answer b r s).exq.queue = s.exq.queue :=
  by simp [answer]
@[simp] theorem answer_exq_mask (b : State) (r : Response) : (answer b r s).exq.mask = s.exq.mask :=
  by simp [answer]
@[simp] theorem answer_tp_closing (b : State) (r : Response) : (answer b r s).tp.closing = s.tp.closing :=
  by simp [answer]

/-! ### offer -/

@[simp] theorem offer_nodes (b : ExcBody) : (s.offer b).nodes = s.nodes :=
  by unfold State.offer; dsimp only; split_ifs <;> simp
@[simp] theorem offer_tp (b : ExcBody) : (s.offer b).tp = s.tp :=
  by unfold State.offer; dsimp only; split_ifs <;> simp
@[simp] theorem offer_pou (b : ExcBody) : (s.offer b).pou = s.pou :=
  by unfold State.offer; dsimp only; split_ifs <;> simp
@[simp] theorem offer_rs (b : ExcBody) : (s.offer b).rs = s.rs :=
  by unfold State.offer; dsimp only; split_ifs <;> simp
@[simp] theorem offer_claims (b : ExcBody) : (s.offer b).claims = s.claims :=
  by unfold State.offer; dsimp only; split_ifs <;> simp
@[simp] theorem offer_stages (b : ExcBody) : (s.offer b).stages = s.stages :=
  by unfold State.offer; dsimp only; split_ifs <;> simp
@[simp] theorem offer_ce (b : ExcBody) : (s.offer b).ce = s.ce :=
  by unfold State.offer; dsimp only; split_ifs <;> simp
@[simp] theorem offer_dbc (b : ExcBody) : (s.offer b).dbc = s.dbc :=
  by unfold State.offer; dsimp only; split_ifs <;> simp
@[simp] theorem offer_mode (b : ExcBody) : (s.offer b).mode = s.mode :=
  by unfold State.offer; dsimp only; split_ifs <;> simp
@[simp] theorem offer_params (b : ExcBody) : (s.offer b).params = s.params :=
  by unfold State.offer; dsimp only; split_ifs <;> simp
@[simp] theorem offer_resetLow (b : ExcBody) : (s.offer b).resetLow = s.resetLow :=
  by unfold State.offer; dsimp only; split_ifs <;> simp
@[simp] theorem offer_freeIndex (b : ExcBody) : (s.offer b).freeIndex = s.freeIndex :=
  by unfold State.offer; dsimp only; split_ifs <;> simp
@[simp] theorem offer_pending (b : ExcBody) : (s.offer b).pending = s.pending :=
  by unfold State.offer; dsimp only; split_ifs <;> simp
@[simp] theorem offer_exq_mask (b : ExcBody) : (s.offer b).exq.mask = s.exq.mask :=
  by unfold State.offer; dsimp only; split_ifs <;> simp

/-! ### offer? -/

@[simp] theorem offer?_nodes (b : Option ExcBody) : (s.offer? b).nodes = s.nodes :=
  by unfold State.offer?; split <;> simp
@[simp] theorem offer?_tp (b : Option ExcBody) : (s.offer? b).tp = s.tp :=
  by unfold State.offer?; split <;> simp
@[simp] theorem offer?_pou (b : Option ExcBody) : (s.offer? b).pou = s.pou :=
  by unfold State.offer?; split <;> simp
@[simp] theorem offer?_rs (b : Option ExcBody) : (s.offer? b).rs = s.rs :=
  by unfold State.offer?; split <;> simp
@[simp] theorem offer?_claims (b : Option ExcBody) : (s.offer? b).claims = s.claims :=
  by unfold State.offer?; split <;> simp
@[simp] theorem offer?_stages (b : Option ExcBody) : (s.offer? b).stages = s.stages :=
  by unfold State.offer?; split <;> simp
@[simp] theorem offer?_ce (b : Option ExcBody) : (s.offer? b).ce = s.ce :=
  by unfold State.offer?; split <;> simp
@[simp] theorem offer?_dbc (b : Option ExcBody) : (s.offer? b).dbc = s.dbc :=
  by unfold State.offer?; split <;> simp
@[simp] theorem offer?_mode (b : Option ExcBody) : (s.offer? b).mode = s.mode :=
  by unfold State.offer?; split <;> simp
@[simp] theorem offer?_params (b : Option ExcBody) : (s.offer? b).params = s.params :=
  by unfold State.offer?; split <;> simp
@[simp] theorem offer?_resetLow (b : Option ExcBody) : (s.offer? b).resetLow = s.resetLow :=
  by unfold State.offer?; split <;> simp
@[simp] theorem offer?_freeIndex (b : Option ExcBody) : (s.offer? b).freeIndex = s.freeIndex :=
  by unfold State.offer?; split <;> simp
@[simp] theorem offer?_pending (b : Option ExcBody) : (s.offer? b).pending = s.pending :=
  by unfold State.offer?; split <;> simp
@[simp] theorem offer?_exq_mask (b : Option ExcBody) : (s.offer? b).exq.mask = s.exq.mask :=
  by unfold State.offer?; split <;> simp

/-! ### offerAll -/

@[simp] theorem offerAll_nodes (bs : List ExcBody) : (s.offerAll bs).nodes = s.nodes :=
  foldl_keeps _ State.nodes (fun s x => by simp) _ s
@[simp] theorem offerAll_tp (bs : List ExcBody) : (s.offerAll bs).tp = s.tp :=
  foldl_keeps _ State.tp (fun s x => by simp) _ s
@[simp] theorem offerAll_pou (bs : List ExcBody) : (s.offerAll bs).pou = s.pou :=
  foldl_keeps _ State.pou (fun s x => by simp) _ s
@[simp] theorem offerAll_rs (bs : List ExcBody) : (s.offerAll bs).rs = s.rs :=
  foldl_keeps _ State.rs (fun s x => by simp) _ s
@[simp] theorem offerAll_claims (bs : List ExcBody) : (s.offerAll bs).claims = s.claims :=
  foldl_keeps _ State.claims (fun s x => by simp) _ s
@[simp] theorem offerAll_stages (bs : List ExcBody) : (s.offerAll bs).stages = s.stages :=
  foldl_keeps _ State.stages (fun s x => by simp) _ s
@[simp] theorem offerAll_ce (bs : List ExcBody) : (s.offerAll bs).ce = s.ce :=
  foldl_keeps _ State.ce (fun s x => by simp) _ s
@[simp] theorem offerAll_dbc (bs : List ExcBody) : (s.offerAll bs).dbc = s.dbc :=
  foldl_keeps _ State.dbc (fun s x => by simp) _ s
@[simp] theorem offerAll_mode (bs : List ExcBody) : (s.offerAll bs).mode = s.mode :=
  foldl_keeps _ State.mode (fun s x => by simp) _ s
@[simp] theorem offerAll_params (bs : List ExcBody) : (s.offerAll bs).params = s.params :=
  foldl_keeps _ State.params (fun s x => by simp) _ s
@[simp] theorem offerAll_resetLow (bs : List ExcBody) : (s.offerAll bs).resetLow = s.resetLow :=
  foldl_keeps _ State.resetLow (fun s x => by simp) _ s
@[simp] theorem offerAll_freeIndex (bs : List ExcBody) : (s.offerAll bs).freeIndex = s.freeIndex :=
  foldl_keeps _ State.freeIndex (fun s x => by simp) _ s
@[simp] theorem offerAll_pending (bs : List ExcBody) : (s.offerAll bs).pending = s.pending :=
  foldl_keeps _ State.pending (fun s x => by simp) _ s
@[simp] theorem offerAll_exq_mask (bs : List ExcBody) : (s.offerAll bs).exq.mask = s.exq.mask :=
  foldl_keeps _ (fun s => s.exq.mask) (fun s x => by simp) _ s

/-! ### breakClaim -/

@[simp] theorem breakClaim_nodes (n : NodeIdx) (p : PointIdx) (c : BreakCause) : (s.breakClaim n p c).nodes = s.nodes :=
  by unfold State.breakClaim; split <;> (try split_ifs) <;> simp
@[simp] theorem breakClaim_tp (n : NodeIdx) (p : PointIdx) (c : BreakCause) : (s.breakClaim n p c).tp = s.tp :=
  by unfold State.breakClaim; split <;> (try split_ifs) <;> simp
@[simp] theorem breakClaim_pou (n : NodeIdx) (p : PointIdx) (c : BreakCause) : (s.breakClaim n p c).pou = s.pou :=
  by unfold State.breakClaim; split <;> (try split_ifs) <;> simp
@[simp] theorem breakClaim_rs (n : NodeIdx) (p : PointIdx) (c : BreakCause) : (s.breakClaim n p c).rs = s.rs :=
  by unfold State.breakClaim; split <;> (try split_ifs) <;> simp
@[simp] theorem breakClaim_stages (n : NodeIdx) (p : PointIdx) (c : BreakCause) : (s.breakClaim n p c).stages = s.stages :=
  by unfold State.breakClaim; split <;> (try split_ifs) <;> simp
@[simp] theorem breakClaim_ce (n : NodeIdx) (p : PointIdx) (c : BreakCause) : (s.breakClaim n p c).ce = s.ce :=
  by unfold State.breakClaim; split <;> (try split_ifs) <;> simp
@[simp] theorem breakClaim_dbc (n : NodeIdx) (p : PointIdx) (c : BreakCause) : (s.breakClaim n p c).dbc = s.dbc :=
  by unfold State.breakClaim; split <;> (try split_ifs) <;> simp
@[simp] theorem breakClaim_mode (n : NodeIdx) (p : PointIdx) (c : BreakCause) : (s.breakClaim n p c).mode = s.mode :=
  by unfold State.breakClaim; split <;> (try split_ifs) <;> simp
@[simp] theorem breakClaim_params (n : NodeIdx) (p : PointIdx) (c : BreakCause) : (s.breakClaim n p c).params = s.params :=
  by unfold State.breakClaim; split <;> (try split_ifs) <;> simp
@[simp] theorem breakClaim_resetLow (n : NodeIdx) (p : PointIdx) (c : BreakCause) : (s.breakClaim n p c).resetLow = s.resetLow :=
  by unfold State.breakClaim; split <;> (try split_ifs) <;> simp
@[simp] theorem breakClaim_freeIndex (n : NodeIdx) (p : PointIdx) (c : BreakCause) : (s.breakClaim n p c).freeIndex = s.freeIndex :=
  by unfold State.breakClaim; split <;> (try split_ifs) <;> simp
@[simp] theorem breakClaim_pending (n : NodeIdx) (p : PointIdx) (c : BreakCause) : (s.breakClaim n p c).pending = s.pending :=
  by unfold State.breakClaim; split <;> (try split_ifs) <;> simp
@[simp] theorem breakClaim_exq_mask (n : NodeIdx) (p : PointIdx) (c : BreakCause) : (s.breakClaim n p c).exq.mask = s.exq.mask :=
  by unfold State.breakClaim; split <;> (try split_ifs) <;> simp

/-! ### setActive -/

@[simp] theorem setActive_tp (n : NodeIdx) (p : PointIdx) (v : Word) (c : BreakCause) : (s.setActive n p v c).tp = s.tp :=
  by simp [State.setActive]
@[simp] theorem setActive_pou (n : NodeIdx) (p : PointIdx) (v : Word) (c : BreakCause) : (s.setActive n p v c).pou = s.pou :=
  by simp [State.setActive]
@[simp] theorem setActive_rs (n : NodeIdx) (p : PointIdx) (v : Word) (c : BreakCause) : (s.setActive n p v c).rs = s.rs :=
  by simp [State.setActive]
@[simp] theorem setActive_stages (n : NodeIdx) (p : PointIdx) (v : Word) (c : BreakCause) : (s.setActive n p v c).stages = s.stages :=
  by simp [State.setActive]
@[simp] theorem setActive_ce (n : NodeIdx) (p : PointIdx) (v : Word) (c : BreakCause) : (s.setActive n p v c).ce = s.ce :=
  by simp [State.setActive]
@[simp] theorem setActive_dbc (n : NodeIdx) (p : PointIdx) (v : Word) (c : BreakCause) : (s.setActive n p v c).dbc = s.dbc :=
  by simp [State.setActive]
@[simp] theorem setActive_mode (n : NodeIdx) (p : PointIdx) (v : Word) (c : BreakCause) : (s.setActive n p v c).mode = s.mode :=
  by simp [State.setActive]
@[simp] theorem setActive_params (n : NodeIdx) (p : PointIdx) (v : Word) (c : BreakCause) : (s.setActive n p v c).params = s.params :=
  by simp [State.setActive]
@[simp] theorem setActive_resetLow (n : NodeIdx) (p : PointIdx) (v : Word) (c : BreakCause) : (s.setActive n p v c).resetLow = s.resetLow :=
  by simp [State.setActive]
@[simp] theorem setActive_freeIndex (n : NodeIdx) (p : PointIdx) (v : Word) (c : BreakCause) : (s.setActive n p v c).freeIndex = s.freeIndex :=
  by simp [State.setActive]
@[simp] theorem setActive_pending (n : NodeIdx) (p : PointIdx) (v : Word) (c : BreakCause) : (s.setActive n p v c).pending = s.pending :=
  by simp [State.setActive]
@[simp] theorem setActive_exq_mask (n : NodeIdx) (p : PointIdx) (v : Word) (c : BreakCause) : (s.setActive n p v c).exq.mask = s.exq.mask :=
  by simp [State.setActive]

/-! ### applyWrite -/

@[simp] theorem applyWrite_tp (n : NodeIdx) (l : List Item) : (s.applyWrite n l).tp = s.tp :=
  foldl_keeps _ State.tp (fun s x => by simp) _ s
@[simp] theorem applyWrite_pou (n : NodeIdx) (l : List Item) : (s.applyWrite n l).pou = s.pou :=
  foldl_keeps _ State.pou (fun s x => by simp) _ s
@[simp] theorem applyWrite_rs (n : NodeIdx) (l : List Item) : (s.applyWrite n l).rs = s.rs :=
  foldl_keeps _ State.rs (fun s x => by simp) _ s
@[simp] theorem applyWrite_stages (n : NodeIdx) (l : List Item) : (s.applyWrite n l).stages = s.stages :=
  foldl_keeps _ State.stages (fun s x => by simp) _ s
@[simp] theorem applyWrite_ce (n : NodeIdx) (l : List Item) : (s.applyWrite n l).ce = s.ce :=
  foldl_keeps _ State.ce (fun s x => by simp) _ s
@[simp] theorem applyWrite_dbc (n : NodeIdx) (l : List Item) : (s.applyWrite n l).dbc = s.dbc :=
  foldl_keeps _ State.dbc (fun s x => by simp) _ s
@[simp] theorem applyWrite_mode (n : NodeIdx) (l : List Item) : (s.applyWrite n l).mode = s.mode :=
  foldl_keeps _ State.mode (fun s x => by simp) _ s
@[simp] theorem applyWrite_params (n : NodeIdx) (l : List Item) : (s.applyWrite n l).params = s.params :=
  foldl_keeps _ State.params (fun s x => by simp) _ s
@[simp] theorem applyWrite_resetLow (n : NodeIdx) (l : List Item) : (s.applyWrite n l).resetLow = s.resetLow :=
  foldl_keeps _ State.resetLow (fun s x => by simp) _ s
@[simp] theorem applyWrite_freeIndex (n : NodeIdx) (l : List Item) : (s.applyWrite n l).freeIndex = s.freeIndex :=
  foldl_keeps _ State.freeIndex (fun s x => by simp) _ s
@[simp] theorem applyWrite_pending (n : NodeIdx) (l : List Item) : (s.applyWrite n l).pending = s.pending :=
  foldl_keeps _ State.pending (fun s x => by simp) _ s
@[simp] theorem applyWrite_exq_mask (n : NodeIdx) (l : List Item) : (s.applyWrite n l).exq.mask = s.exq.mask :=
  foldl_keeps _ (fun s => s.exq.mask) (fun s x => by simp) _ s

/-! ### answerCommit -/

@[simp] theorem answerCommit_nodes (o : Originator) (st : Status) (b : List Byte) : (s.answerCommit o st b).nodes = s.nodes :=
  by unfold State.answerCommit; split <;> simp
@[simp] theorem answerCommit_pou (o : Originator) (st : Status) (b : List Byte) : (s.answerCommit o st b).pou = s.pou :=
  by unfold State.answerCommit; split <;> simp
@[simp] theorem answerCommit_rs (o : Originator) (st : Status) (b : List Byte) : (s.answerCommit o st b).rs = s.rs :=
  by unfold State.answerCommit; split <;> simp
@[simp] theorem answerCommit_claims (o : Originator) (st : Status) (b : List Byte) : (s.answerCommit o st b).claims = s.claims :=
  by unfold State.answerCommit; split <;> simp
@[simp] theorem answerCommit_stages (o : Originator) (st : Status) (b : List Byte) : (s.answerCommit o st b).stages = s.stages :=
  by unfold State.answerCommit; split <;> simp
@[simp] theorem answerCommit_ce (o : Originator) (st : Status) (b : List Byte) : (s.answerCommit o st b).ce = s.ce :=
  by unfold State.answerCommit; split <;> simp
@[simp] theorem answerCommit_dbc (o : Originator) (st : Status) (b : List Byte) : (s.answerCommit o st b).dbc = s.dbc :=
  by unfold State.answerCommit; split <;> simp
@[simp] theorem answerCommit_mode (o : Originator) (st : Status) (b : List Byte) : (s.answerCommit o st b).mode = s.mode :=
  by unfold State.answerCommit; split <;> simp
@[simp] theorem answerCommit_params (o : Originator) (st : Status) (b : List Byte) : (s.answerCommit o st b).params = s.params :=
  by unfold State.answerCommit; split <;> simp
@[simp] theorem answerCommit_resetLow (o : Originator) (st : Status) (b : List Byte) : (s.answerCommit o st b).resetLow = s.resetLow :=
  by unfold State.answerCommit; split <;> simp
@[simp] theorem answerCommit_freeIndex (o : Originator) (st : Status) (b : List Byte) : (s.answerCommit o st b).freeIndex = s.freeIndex :=
  by unfold State.answerCommit; split <;> simp
@[simp] theorem answerCommit_pending (o : Originator) (st : Status) (b : List Byte) : (s.answerCommit o st b).pending = s.pending :=
  by unfold State.answerCommit; split <;> simp
@[simp] theorem answerCommit_exq_queue (o : Originator) (st : Status) (b : List Byte) : (s.answerCommit o st b).exq.queue = s.exq.queue :=
  by unfold State.answerCommit; split <;> simp
@[simp] theorem answerCommit_exq_mask (o : Originator) (st : Status) (b : List Byte) : (s.answerCommit o st b).exq.mask = s.exq.mask :=
  by unfold State.answerCommit; split <;> simp
@[simp] theorem answerCommit_tp_closing (o : Originator) (st : Status) (b : List Byte) : (s.answerCommit o st b).tp.closing = s.tp.closing :=
  by unfold State.answerCommit; split <;> simp

/-! ### endDrain -/

@[simp] theorem endDrain_nodes : s.endDrain.nodes = s.nodes :=
  by unfold State.endDrain; split_ifs <;> simp
@[simp] theorem endDrain_tp : s.endDrain.tp = s.tp :=
  by unfold State.endDrain; split_ifs <;> simp
@[simp] theorem endDrain_pou : s.endDrain.pou = s.pou :=
  by unfold State.endDrain; split_ifs <;> simp
@[simp] theorem endDrain_rs : s.endDrain.rs = s.rs :=
  by unfold State.endDrain; split_ifs <;> simp
@[simp] theorem endDrain_claims : s.endDrain.claims = s.claims :=
  by unfold State.endDrain; split_ifs <;> simp
@[simp] theorem endDrain_stages : s.endDrain.stages = s.stages :=
  by unfold State.endDrain; split_ifs <;> simp
@[simp] theorem endDrain_ce : s.endDrain.ce = s.ce :=
  by unfold State.endDrain; split_ifs <;> simp
@[simp] theorem endDrain_dbc : s.endDrain.dbc = s.dbc :=
  by unfold State.endDrain; split_ifs <;> simp
@[simp] theorem endDrain_counters : s.endDrain.counters = s.counters :=
  by unfold State.endDrain; split_ifs <;> simp
@[simp] theorem endDrain_params : s.endDrain.params = s.params :=
  by unfold State.endDrain; split_ifs <;> simp
@[simp] theorem endDrain_resetLow : s.endDrain.resetLow = s.resetLow :=
  by unfold State.endDrain; split_ifs <;> simp
@[simp] theorem endDrain_freeIndex : s.endDrain.freeIndex = s.freeIndex :=
  by unfold State.endDrain; split_ifs <;> simp
@[simp] theorem endDrain_pending : s.endDrain.pending = s.pending :=
  by unfold State.endDrain; split_ifs <;> simp
@[simp] theorem endDrain_exq_queue : s.endDrain.exq.queue = s.exq.queue :=
  by unfold State.endDrain; split_ifs <;> simp
@[simp] theorem endDrain_exq_mask : s.endDrain.exq.mask = s.exq.mask :=
  by unfold State.endDrain; split_ifs <;> simp

/-! ### impotentPass -/

@[simp] theorem impotentPass_nodes (c : Condition) : (s.impotentPass c).nodes = s.nodes :=
  by simp [State.impotentPass]
@[simp] theorem impotentPass_tp (c : Condition) : (s.impotentPass c).tp = s.tp :=
  by simp [State.impotentPass]
@[simp] theorem impotentPass_rs (c : Condition) : (s.impotentPass c).rs = s.rs :=
  by simp [State.impotentPass]
@[simp] theorem impotentPass_claims (c : Condition) : (s.impotentPass c).claims = s.claims :=
  by simp [State.impotentPass]
@[simp] theorem impotentPass_stages (c : Condition) : (s.impotentPass c).stages = s.stages :=
  by simp [State.impotentPass]
@[simp] theorem impotentPass_ce (c : Condition) : (s.impotentPass c).ce = s.ce :=
  by simp [State.impotentPass]
@[simp] theorem impotentPass_dbc (c : Condition) : (s.impotentPass c).dbc = s.dbc :=
  by simp [State.impotentPass]
@[simp] theorem impotentPass_mode (c : Condition) : (s.impotentPass c).mode = s.mode :=
  by simp [State.impotentPass]
@[simp] theorem impotentPass_params (c : Condition) : (s.impotentPass c).params = s.params :=
  by simp [State.impotentPass]
@[simp] theorem impotentPass_resetLow (c : Condition) : (s.impotentPass c).resetLow = s.resetLow :=
  by simp [State.impotentPass]
@[simp] theorem impotentPass_freeIndex (c : Condition) : (s.impotentPass c).freeIndex = s.freeIndex :=
  by simp [State.impotentPass]
@[simp] theorem impotentPass_pending (c : Condition) : (s.impotentPass c).pending = s.pending :=
  by simp [State.impotentPass]
@[simp] theorem impotentPass_exq_queue (c : Condition) : (s.impotentPass c).exq.queue = s.exq.queue :=
  by simp [State.impotentPass]
@[simp] theorem impotentPass_exq_mask (c : Condition) : (s.impotentPass c).exq.mask = s.exq.mask :=
  by simp [State.impotentPass]
@[simp] theorem impotentPass_pou_forward (c : Condition) : (s.impotentPass c).pou.forward = s.pou.forward :=
  by simp [State.impotentPass]
@[simp] theorem impotentPass_pou_inHand (c : Condition) : (s.impotentPass c).pou.inHand = s.pou.inHand :=
  by simp [State.impotentPass]
@[simp] theorem impotentPass_pou_lastRefusal (c : Condition) : (s.impotentPass c).pou.lastRefusal = s.pou.lastRefusal :=
  by simp [State.impotentPass]

/-! ### passOverrange -/

@[simp] theorem passOverrange_nodes (c : CondSet) : (s.passOverrange c).nodes = s.nodes :=
  by unfold State.passOverrange; split_ifs <;> simp
@[simp] theorem passOverrange_tp (c : CondSet) : (s.passOverrange c).tp = s.tp :=
  by unfold State.passOverrange; split_ifs <;> simp
@[simp] theorem passOverrange_rs (c : CondSet) : (s.passOverrange c).rs = s.rs :=
  by unfold State.passOverrange; split_ifs <;> simp
@[simp] theorem passOverrange_claims (c : CondSet) : (s.passOverrange c).claims = s.claims :=
  by unfold State.passOverrange; split_ifs <;> simp
@[simp] theorem passOverrange_stages (c : CondSet) : (s.passOverrange c).stages = s.stages :=
  by unfold State.passOverrange; split_ifs <;> simp
@[simp] theorem passOverrange_ce (c : CondSet) : (s.passOverrange c).ce = s.ce :=
  by unfold State.passOverrange; split_ifs <;> simp
@[simp] theorem passOverrange_dbc (c : CondSet) : (s.passOverrange c).dbc = s.dbc :=
  by unfold State.passOverrange; split_ifs <;> simp
@[simp] theorem passOverrange_mode (c : CondSet) : (s.passOverrange c).mode = s.mode :=
  by unfold State.passOverrange; split_ifs <;> simp
@[simp] theorem passOverrange_params (c : CondSet) : (s.passOverrange c).params = s.params :=
  by unfold State.passOverrange; split_ifs <;> simp
@[simp] theorem passOverrange_resetLow (c : CondSet) : (s.passOverrange c).resetLow = s.resetLow :=
  by unfold State.passOverrange; split_ifs <;> simp
@[simp] theorem passOverrange_freeIndex (c : CondSet) : (s.passOverrange c).freeIndex = s.freeIndex :=
  by unfold State.passOverrange; split_ifs <;> simp
@[simp] theorem passOverrange_pending (c : CondSet) : (s.passOverrange c).pending = s.pending :=
  by unfold State.passOverrange; split_ifs <;> simp
@[simp] theorem passOverrange_exq_queue (c : CondSet) : (s.passOverrange c).exq.queue = s.exq.queue :=
  by unfold State.passOverrange; split_ifs <;> simp
@[simp] theorem passOverrange_exq_mask (c : CondSet) : (s.passOverrange c).exq.mask = s.exq.mask :=
  by unfold State.passOverrange; split_ifs <;> simp
@[simp] theorem passOverrange_pou_forward (c : CondSet) : (s.passOverrange c).pou.forward = s.pou.forward :=
  by unfold State.passOverrange; split_ifs <;> simp
@[simp] theorem passOverrange_pou_inHand (c : CondSet) : (s.passOverrange c).pou.inHand = s.pou.inHand :=
  by unfold State.passOverrange; split_ifs <;> simp
@[simp] theorem passOverrange_pou_lastRefusal (c : CondSet) : (s.passOverrange c).pou.lastRefusal = s.pou.lastRefusal :=
  by unfold State.passOverrange; split_ifs <;> simp

/-! ### potentRefusal -/

@[simp] theorem potentRefusal_nodes (o : Originator) (t : Byte) (k : ReqKind) (n : NodeIdx) (p : PointIdx) (c : Condition) : (s.potentRefusal o t k n p c).nodes = s.nodes :=
  by simp [State.potentRefusal]
@[simp] theorem potentRefusal_tp (o : Originator) (t : Byte) (k : ReqKind) (n : NodeIdx) (p : PointIdx) (c : Condition) : (s.potentRefusal o t k n p c).tp = s.tp :=
  by simp [State.potentRefusal]
@[simp] theorem potentRefusal_rs (o : Originator) (t : Byte) (k : ReqKind) (n : NodeIdx) (p : PointIdx) (c : Condition) : (s.potentRefusal o t k n p c).rs = s.rs :=
  by simp [State.potentRefusal]
@[simp] theorem potentRefusal_claims (o : Originator) (t : Byte) (k : ReqKind) (n : NodeIdx) (p : PointIdx) (c : Condition) : (s.potentRefusal o t k n p c).claims = s.claims :=
  by simp [State.potentRefusal]
@[simp] theorem potentRefusal_stages (o : Originator) (t : Byte) (k : ReqKind) (n : NodeIdx) (p : PointIdx) (c : Condition) : (s.potentRefusal o t k n p c).stages = s.stages :=
  by simp [State.potentRefusal]
@[simp] theorem potentRefusal_ce (o : Originator) (t : Byte) (k : ReqKind) (n : NodeIdx) (p : PointIdx) (c : Condition) : (s.potentRefusal o t k n p c).ce = s.ce :=
  by simp [State.potentRefusal]
@[simp] theorem potentRefusal_dbc (o : Originator) (t : Byte) (k : ReqKind) (n : NodeIdx) (p : PointIdx) (c : Condition) : (s.potentRefusal o t k n p c).dbc = s.dbc :=
  by simp [State.potentRefusal]
@[simp] theorem potentRefusal_mode (o : Originator) (t : Byte) (k : ReqKind) (n : NodeIdx) (p : PointIdx) (c : Condition) : (s.potentRefusal o t k n p c).mode = s.mode :=
  by simp [State.potentRefusal]
@[simp] theorem potentRefusal_params (o : Originator) (t : Byte) (k : ReqKind) (n : NodeIdx) (p : PointIdx) (c : Condition) : (s.potentRefusal o t k n p c).params = s.params :=
  by simp [State.potentRefusal]
@[simp] theorem potentRefusal_resetLow (o : Originator) (t : Byte) (k : ReqKind) (n : NodeIdx) (p : PointIdx) (c : Condition) : (s.potentRefusal o t k n p c).resetLow = s.resetLow :=
  by simp [State.potentRefusal]
@[simp] theorem potentRefusal_freeIndex (o : Originator) (t : Byte) (k : ReqKind) (n : NodeIdx) (p : PointIdx) (c : Condition) : (s.potentRefusal o t k n p c).freeIndex = s.freeIndex :=
  by simp [State.potentRefusal]
@[simp] theorem potentRefusal_pending (o : Originator) (t : Byte) (k : ReqKind) (n : NodeIdx) (p : PointIdx) (c : Condition) : (s.potentRefusal o t k n p c).pending = s.pending :=
  by simp [State.potentRefusal]
@[simp] theorem potentRefusal_exq_queue (o : Originator) (t : Byte) (k : ReqKind) (n : NodeIdx) (p : PointIdx) (c : Condition) : (s.potentRefusal o t k n p c).exq.queue = s.exq.queue :=
  by simp [State.potentRefusal]
@[simp] theorem potentRefusal_exq_mask (o : Originator) (t : Byte) (k : ReqKind) (n : NodeIdx) (p : PointIdx) (c : Condition) : (s.potentRefusal o t k n p c).exq.mask = s.exq.mask :=
  by simp [State.potentRefusal]
@[simp] theorem potentRefusal_pou_forward (o : Originator) (t : Byte) (k : ReqKind) (n : NodeIdx) (p : PointIdx) (c : Condition) : (s.potentRefusal o t k n p c).pou.forward = s.pou.forward :=
  by simp [State.potentRefusal]
@[simp] theorem potentRefusal_pou_inHand (o : Originator) (t : Byte) (k : ReqKind) (n : NodeIdx) (p : PointIdx) (c : Condition) : (s.potentRefusal o t k n p c).pou.inHand = s.pou.inHand :=
  by simp [State.potentRefusal]
@[simp] theorem potentRefusal_pou_summary (o : Originator) (t : Byte) (k : ReqKind) (n : NodeIdx) (p : PointIdx) (c : Condition) : (s.potentRefusal o t k n p c).pou.summary = s.pou.summary :=
  by simp [State.potentRefusal]

/-! ### joinForward -/

@[simp] theorem joinForward_nodes (k : ReqKind) (rq : Request) (n : NodeIdx) (o : NodeOp) (c : CondSet) : (s.joinForward k rq n o c).nodes = s.nodes :=
  by unfold State.joinForward; split_ifs <;> simp
@[simp] theorem joinForward_rs (k : ReqKind) (rq : Request) (n : NodeIdx) (o : NodeOp) (c : CondSet) : (s.joinForward k rq n o c).rs = s.rs :=
  by unfold State.joinForward; split_ifs <;> simp
@[simp] theorem joinForward_claims (k : ReqKind) (rq : Request) (n : NodeIdx) (o : NodeOp) (c : CondSet) : (s.joinForward k rq n o c).claims = s.claims :=
  by unfold State.joinForward; split_ifs <;> simp
@[simp] theorem joinForward_stages (k : ReqKind) (rq : Request) (n : NodeIdx) (o : NodeOp) (c : CondSet) : (s.joinForward k rq n o c).stages = s.stages :=
  by unfold State.joinForward; split_ifs <;> simp
@[simp] theorem joinForward_ce (k : ReqKind) (rq : Request) (n : NodeIdx) (o : NodeOp) (c : CondSet) : (s.joinForward k rq n o c).ce = s.ce :=
  by unfold State.joinForward; split_ifs <;> simp
@[simp] theorem joinForward_dbc (k : ReqKind) (rq : Request) (n : NodeIdx) (o : NodeOp) (c : CondSet) : (s.joinForward k rq n o c).dbc = s.dbc :=
  by unfold State.joinForward; split_ifs <;> simp
@[simp] theorem joinForward_mode (k : ReqKind) (rq : Request) (n : NodeIdx) (o : NodeOp) (c : CondSet) : (s.joinForward k rq n o c).mode = s.mode :=
  by unfold State.joinForward; split_ifs <;> simp
@[simp] theorem joinForward_params (k : ReqKind) (rq : Request) (n : NodeIdx) (o : NodeOp) (c : CondSet) : (s.joinForward k rq n o c).params = s.params :=
  by unfold State.joinForward; split_ifs <;> simp
@[simp] theorem joinForward_resetLow (k : ReqKind) (rq : Request) (n : NodeIdx) (o : NodeOp) (c : CondSet) : (s.joinForward k rq n o c).resetLow = s.resetLow :=
  by unfold State.joinForward; split_ifs <;> simp
@[simp] theorem joinForward_freeIndex (k : ReqKind) (rq : Request) (n : NodeIdx) (o : NodeOp) (c : CondSet) : (s.joinForward k rq n o c).freeIndex = s.freeIndex :=
  by unfold State.joinForward; split_ifs <;> simp
@[simp] theorem joinForward_pending (k : ReqKind) (rq : Request) (n : NodeIdx) (o : NodeOp) (c : CondSet) : (s.joinForward k rq n o c).pending = s.pending :=
  by unfold State.joinForward; split_ifs <;> simp
@[simp] theorem joinForward_exq_queue (k : ReqKind) (rq : Request) (n : NodeIdx) (o : NodeOp) (c : CondSet) : (s.joinForward k rq n o c).exq.queue = s.exq.queue :=
  by unfold State.joinForward; split_ifs <;> simp
@[simp] theorem joinForward_exq_mask (k : ReqKind) (rq : Request) (n : NodeIdx) (o : NodeOp) (c : CondSet) : (s.joinForward k rq n o c).exq.mask = s.exq.mask :=
  by unfold State.joinForward; split_ifs <;> simp
@[simp] theorem joinForward_tp_closing (k : ReqKind) (rq : Request) (n : NodeIdx) (o : NodeOp) (c : CondSet) : (s.joinForward k rq n o c).tp.closing = s.tp.closing :=
  by unfold State.joinForward; split_ifs <;> simp
@[simp] theorem joinForward_pou_inHand (k : ReqKind) (rq : Request) (n : NodeIdx) (o : NodeOp) (c : CondSet) : (s.joinForward k rq n o c).pou.inHand = s.pou.inHand :=
  by unfold State.joinForward; split_ifs <;> simp
@[simp] theorem joinForward_pou_lastRefusal (k : ReqKind) (rq : Request) (n : NodeIdx) (o : NodeOp) (c : CondSet) : (s.joinForward k rq n o c).pou.lastRefusal = s.pou.lastRefusal :=
  by unfold State.joinForward; split_ifs <;> simp

/-! ### takeCommit -/

@[simp] theorem takeCommit_nodes : s.takeCommit.nodes = s.nodes :=
  by unfold State.takeCommit; split_ifs <;> [(split <;> simp); rfl]
@[simp] theorem takeCommit_tp : s.takeCommit.tp = s.tp :=
  by unfold State.takeCommit; split_ifs <;> [(split <;> simp); rfl]
@[simp] theorem takeCommit_pou : s.takeCommit.pou = s.pou :=
  by unfold State.takeCommit; split_ifs <;> [(split <;> simp); rfl]
@[simp] theorem takeCommit_rs : s.takeCommit.rs = s.rs :=
  by unfold State.takeCommit; split_ifs <;> [(split <;> simp); rfl]
@[simp] theorem takeCommit_claims : s.takeCommit.claims = s.claims :=
  by unfold State.takeCommit; split_ifs <;> [(split <;> simp); rfl]
@[simp] theorem takeCommit_dbc : s.takeCommit.dbc = s.dbc :=
  by unfold State.takeCommit; split_ifs <;> [(split <;> simp); rfl]
@[simp] theorem takeCommit_exq : s.takeCommit.exq = s.exq :=
  by unfold State.takeCommit; split_ifs <;> [(split <;> simp); rfl]
@[simp] theorem takeCommit_counters : s.takeCommit.counters = s.counters :=
  by unfold State.takeCommit; split_ifs <;> [(split <;> simp); rfl]
@[simp] theorem takeCommit_mode : s.takeCommit.mode = s.mode :=
  by unfold State.takeCommit; split_ifs <;> [(split <;> simp); rfl]
@[simp] theorem takeCommit_params : s.takeCommit.params = s.params :=
  by unfold State.takeCommit; split_ifs <;> [(split <;> simp); rfl]
@[simp] theorem takeCommit_resetLow : s.takeCommit.resetLow = s.resetLow :=
  by unfold State.takeCommit; split_ifs <;> [(split <;> simp); rfl]
@[simp] theorem takeCommit_freeIndex : s.takeCommit.freeIndex = s.freeIndex :=
  by unfold State.takeCommit; split_ifs <;> [(split <;> simp); rfl]
@[simp] theorem takeCommit_pending : s.takeCommit.pending = s.pending :=
  by unfold State.takeCommit; split_ifs <;> [(split <;> simp); rfl]
@[simp] theorem takeCommit_ce_clearOwed : s.takeCommit.ce.clearOwed = s.ce.clearOwed :=
  by unfold State.takeCommit; split_ifs <;> [(split <;> simp); rfl]

/-! ### dropPending -/

@[simp] theorem dropPending_tp (l : List StageEntry) : (s.dropPending l).tp = s.tp :=
  foldl_keeps _ State.tp (fun s x => by simp) _ s
@[simp] theorem dropPending_pou (l : List StageEntry) : (s.dropPending l).pou = s.pou :=
  foldl_keeps _ State.pou (fun s x => by simp) _ s
@[simp] theorem dropPending_rs (l : List StageEntry) : (s.dropPending l).rs = s.rs :=
  foldl_keeps _ State.rs (fun s x => by simp) _ s
@[simp] theorem dropPending_claims (l : List StageEntry) : (s.dropPending l).claims = s.claims :=
  foldl_keeps _ State.claims (fun s x => by simp) _ s
@[simp] theorem dropPending_stages (l : List StageEntry) : (s.dropPending l).stages = s.stages :=
  foldl_keeps _ State.stages (fun s x => by simp) _ s
@[simp] theorem dropPending_ce (l : List StageEntry) : (s.dropPending l).ce = s.ce :=
  foldl_keeps _ State.ce (fun s x => by simp) _ s
@[simp] theorem dropPending_dbc (l : List StageEntry) : (s.dropPending l).dbc = s.dbc :=
  foldl_keeps _ State.dbc (fun s x => by simp) _ s
@[simp] theorem dropPending_exq (l : List StageEntry) : (s.dropPending l).exq = s.exq :=
  foldl_keeps _ State.exq (fun s x => by simp) _ s
@[simp] theorem dropPending_counters (l : List StageEntry) : (s.dropPending l).counters = s.counters :=
  foldl_keeps _ State.counters (fun s x => by simp) _ s
@[simp] theorem dropPending_mode (l : List StageEntry) : (s.dropPending l).mode = s.mode :=
  foldl_keeps _ State.mode (fun s x => by simp) _ s
@[simp] theorem dropPending_params (l : List StageEntry) : (s.dropPending l).params = s.params :=
  foldl_keeps _ State.params (fun s x => by simp) _ s
@[simp] theorem dropPending_resetLow (l : List StageEntry) : (s.dropPending l).resetLow = s.resetLow :=
  foldl_keeps _ State.resetLow (fun s x => by simp) _ s
@[simp] theorem dropPending_freeIndex (l : List StageEntry) : (s.dropPending l).freeIndex = s.freeIndex :=
  foldl_keeps _ State.freeIndex (fun s x => by simp) _ s
@[simp] theorem dropPending_pending (l : List StageEntry) : (s.dropPending l).pending = s.pending :=
  foldl_keeps _ State.pending (fun s x => by simp) _ s

/-! ### endCommit -/

@[simp] theorem endCommit_nodes (o : Originator) (st : Status) (b : List Byte) : (s.endCommit o st b).nodes = s.nodes :=
  by simp [State.endCommit]
@[simp] theorem endCommit_pou (o : Originator) (st : Status) (b : List Byte) : (s.endCommit o st b).pou = s.pou :=
  by simp [State.endCommit]
@[simp] theorem endCommit_rs (o : Originator) (st : Status) (b : List Byte) : (s.endCommit o st b).rs = s.rs :=
  by simp [State.endCommit]
@[simp] theorem endCommit_claims (o : Originator) (st : Status) (b : List Byte) : (s.endCommit o st b).claims = s.claims :=
  by simp [State.endCommit]
@[simp] theorem endCommit_dbc (o : Originator) (st : Status) (b : List Byte) : (s.endCommit o st b).dbc = s.dbc :=
  by simp [State.endCommit]
@[simp] theorem endCommit_mode (o : Originator) (st : Status) (b : List Byte) : (s.endCommit o st b).mode = s.mode :=
  by simp [State.endCommit]
@[simp] theorem endCommit_params (o : Originator) (st : Status) (b : List Byte) : (s.endCommit o st b).params = s.params :=
  by simp [State.endCommit]
@[simp] theorem endCommit_resetLow (o : Originator) (st : Status) (b : List Byte) : (s.endCommit o st b).resetLow = s.resetLow :=
  by simp [State.endCommit]
@[simp] theorem endCommit_freeIndex (o : Originator) (st : Status) (b : List Byte) : (s.endCommit o st b).freeIndex = s.freeIndex :=
  by simp [State.endCommit]
@[simp] theorem endCommit_pending (o : Originator) (st : Status) (b : List Byte) : (s.endCommit o st b).pending = s.pending :=
  by simp [State.endCommit]
@[simp] theorem endCommit_exq_queue (o : Originator) (st : Status) (b : List Byte) : (s.endCommit o st b).exq.queue = s.exq.queue :=
  by simp [State.endCommit]
@[simp] theorem endCommit_exq_mask (o : Originator) (st : Status) (b : List Byte) : (s.endCommit o st b).exq.mask = s.exq.mask :=
  by simp [State.endCommit]
@[simp] theorem endCommit_tp_closing (o : Originator) (st : Status) (b : List Byte) : (s.endCommit o st b).tp.closing = s.tp.closing :=
  by simp [State.endCommit]
@[simp] theorem endCommit_ce_clearOwed (o : Originator) (st : Status) (b : List Byte) : (s.endCommit o st b).ce.clearOwed = s.ce.clearOwed :=
  by simp [State.endCommit]

/-! ### takePoint -/

@[simp] theorem takePoint_tp (e : StageEntry) : (s.takePoint e).tp = s.tp :=
  by unfold State.takePoint; split <;> simp
@[simp] theorem takePoint_pou (e : StageEntry) : (s.takePoint e).pou = s.pou :=
  by unfold State.takePoint; split <;> simp
@[simp] theorem takePoint_rs (e : StageEntry) : (s.takePoint e).rs = s.rs :=
  by unfold State.takePoint; split <;> simp
@[simp] theorem takePoint_stages (e : StageEntry) : (s.takePoint e).stages = s.stages :=
  by unfold State.takePoint; split <;> simp
@[simp] theorem takePoint_ce (e : StageEntry) : (s.takePoint e).ce = s.ce :=
  by unfold State.takePoint; split <;> simp
@[simp] theorem takePoint_dbc (e : StageEntry) : (s.takePoint e).dbc = s.dbc :=
  by unfold State.takePoint; split <;> simp
@[simp] theorem takePoint_mode (e : StageEntry) : (s.takePoint e).mode = s.mode :=
  by unfold State.takePoint; split <;> simp
@[simp] theorem takePoint_params (e : StageEntry) : (s.takePoint e).params = s.params :=
  by unfold State.takePoint; split <;> simp
@[simp] theorem takePoint_resetLow (e : StageEntry) : (s.takePoint e).resetLow = s.resetLow :=
  by unfold State.takePoint; split <;> simp
@[simp] theorem takePoint_freeIndex (e : StageEntry) : (s.takePoint e).freeIndex = s.freeIndex :=
  by unfold State.takePoint; split <;> simp
@[simp] theorem takePoint_pending (e : StageEntry) : (s.takePoint e).pending = s.pending :=
  by unfold State.takePoint; split <;> simp
@[simp] theorem takePoint_exq_mask (e : StageEntry) : (s.takePoint e).exq.mask = s.exq.mask :=
  by unfold State.takePoint; split <;> simp

/-! ### endFailed -/

@[simp] theorem endFailed_pou (c : Commit) (n : NodeIdx) (f : FailCause) : (s.endFailed c n f).pou = s.pou :=
  by simp [State.endFailed]
@[simp] theorem endFailed_rs (c : Commit) (n : NodeIdx) (f : FailCause) : (s.endFailed c n f).rs = s.rs :=
  by simp [State.endFailed]
@[simp] theorem endFailed_claims (c : Commit) (n : NodeIdx) (f : FailCause) : (s.endFailed c n f).claims = s.claims :=
  by simp [State.endFailed]
@[simp] theorem endFailed_dbc (c : Commit) (n : NodeIdx) (f : FailCause) : (s.endFailed c n f).dbc = s.dbc :=
  by simp [State.endFailed]
@[simp] theorem endFailed_mode (c : Commit) (n : NodeIdx) (f : FailCause) : (s.endFailed c n f).mode = s.mode :=
  by simp [State.endFailed]
@[simp] theorem endFailed_params (c : Commit) (n : NodeIdx) (f : FailCause) : (s.endFailed c n f).params = s.params :=
  by simp [State.endFailed]
@[simp] theorem endFailed_resetLow (c : Commit) (n : NodeIdx) (f : FailCause) : (s.endFailed c n f).resetLow = s.resetLow :=
  by simp [State.endFailed]
@[simp] theorem endFailed_freeIndex (c : Commit) (n : NodeIdx) (f : FailCause) : (s.endFailed c n f).freeIndex = s.freeIndex :=
  by simp [State.endFailed]
@[simp] theorem endFailed_pending (c : Commit) (n : NodeIdx) (f : FailCause) : (s.endFailed c n f).pending = s.pending :=
  by simp [State.endFailed]
@[simp] theorem endFailed_exq_queue (c : Commit) (n : NodeIdx) (f : FailCause) : (s.endFailed c n f).exq.queue = s.exq.queue :=
  by simp [State.endFailed]
@[simp] theorem endFailed_exq_mask (c : Commit) (n : NodeIdx) (f : FailCause) : (s.endFailed c n f).exq.mask = s.exq.mask :=
  by simp [State.endFailed]
@[simp] theorem endFailed_tp_closing (c : Commit) (n : NodeIdx) (f : FailCause) : (s.endFailed c n f).tp.closing = s.tp.closing :=
  by simp [State.endFailed]
@[simp] theorem endFailed_ce_clearOwed (c : Commit) (n : NodeIdx) (f : FailCause) : (s.endFailed c n f).ce.clearOwed = s.ce.clearOwed :=
  by simp [State.endFailed]

/-! ### failCommit -/

@[simp] theorem failCommit_pou (c : Commit) (n : NodeIdx) (f : FailCause) : (s.failCommit c n f).pou = s.pou :=
  by unfold State.failCommit; split_ifs <;> simp
@[simp] theorem failCommit_rs (c : Commit) (n : NodeIdx) (f : FailCause) : (s.failCommit c n f).rs = s.rs :=
  by unfold State.failCommit; split_ifs <;> simp
@[simp] theorem failCommit_claims (c : Commit) (n : NodeIdx) (f : FailCause) : (s.failCommit c n f).claims = s.claims :=
  by unfold State.failCommit; split_ifs <;> simp
@[simp] theorem failCommit_dbc (c : Commit) (n : NodeIdx) (f : FailCause) : (s.failCommit c n f).dbc = s.dbc :=
  by unfold State.failCommit; split_ifs <;> simp
@[simp] theorem failCommit_mode (c : Commit) (n : NodeIdx) (f : FailCause) : (s.failCommit c n f).mode = s.mode :=
  by unfold State.failCommit; split_ifs <;> simp
@[simp] theorem failCommit_params (c : Commit) (n : NodeIdx) (f : FailCause) : (s.failCommit c n f).params = s.params :=
  by unfold State.failCommit; split_ifs <;> simp
@[simp] theorem failCommit_resetLow (c : Commit) (n : NodeIdx) (f : FailCause) : (s.failCommit c n f).resetLow = s.resetLow :=
  by unfold State.failCommit; split_ifs <;> simp
@[simp] theorem failCommit_freeIndex (c : Commit) (n : NodeIdx) (f : FailCause) : (s.failCommit c n f).freeIndex = s.freeIndex :=
  by unfold State.failCommit; split_ifs <;> simp
@[simp] theorem failCommit_pending (c : Commit) (n : NodeIdx) (f : FailCause) : (s.failCommit c n f).pending = s.pending :=
  by unfold State.failCommit; split_ifs <;> simp
@[simp] theorem failCommit_exq_queue (c : Commit) (n : NodeIdx) (f : FailCause) : (s.failCommit c n f).exq.queue = s.exq.queue :=
  by unfold State.failCommit; split_ifs <;> simp
@[simp] theorem failCommit_exq_mask (c : Commit) (n : NodeIdx) (f : FailCause) : (s.failCommit c n f).exq.mask = s.exq.mask :=
  by unfold State.failCommit; split_ifs <;> simp
@[simp] theorem failCommit_tp_closing (c : Commit) (n : NodeIdx) (f : FailCause) : (s.failCommit c n f).tp.closing = s.tp.closing :=
  by unfold State.failCommit; split_ifs <;> simp
@[simp] theorem failCommit_ce_clearOwed (c : Commit) (n : NodeIdx) (f : FailCause) : (s.failCommit c n f).ce.clearOwed = s.ce.clearOwed :=
  by unfold State.failCommit; split_ifs <;> simp

/-! ### loadAccepted -/

@[simp] theorem loadAccepted_tp (c : Commit) (n : NodeIdx) (l : List Item) : (s.loadAccepted c n l).tp = s.tp :=
  by unfold State.loadAccepted; exact foldl_keeps _ (fun s => s.tp) (fun s x => by simp) _ s
@[simp] theorem loadAccepted_pou (c : Commit) (n : NodeIdx) (l : List Item) : (s.loadAccepted c n l).pou = s.pou :=
  by unfold State.loadAccepted; exact foldl_keeps _ (fun s => s.pou) (fun s x => by simp) _ s
@[simp] theorem loadAccepted_rs (c : Commit) (n : NodeIdx) (l : List Item) : (s.loadAccepted c n l).rs = s.rs :=
  by unfold State.loadAccepted; exact foldl_keeps _ (fun s => s.rs) (fun s x => by simp) _ s
@[simp] theorem loadAccepted_claims (c : Commit) (n : NodeIdx) (l : List Item) : (s.loadAccepted c n l).claims = s.claims :=
  by unfold State.loadAccepted; exact foldl_keeps _ (fun s => s.claims) (fun s x => by simp) _ s
@[simp] theorem loadAccepted_stages (c : Commit) (n : NodeIdx) (l : List Item) : (s.loadAccepted c n l).stages = s.stages :=
  by unfold State.loadAccepted; exact foldl_keeps _ (fun s => s.stages) (fun s x => by simp) _ s
@[simp] theorem loadAccepted_dbc (c : Commit) (n : NodeIdx) (l : List Item) : (s.loadAccepted c n l).dbc = s.dbc :=
  by unfold State.loadAccepted; exact foldl_keeps _ (fun s => s.dbc) (fun s x => by simp) _ s
@[simp] theorem loadAccepted_exq (c : Commit) (n : NodeIdx) (l : List Item) : (s.loadAccepted c n l).exq = s.exq :=
  by unfold State.loadAccepted; exact foldl_keeps _ (fun s => s.exq) (fun s x => by simp) _ s
@[simp] theorem loadAccepted_counters (c : Commit) (n : NodeIdx) (l : List Item) : (s.loadAccepted c n l).counters = s.counters :=
  by unfold State.loadAccepted; exact foldl_keeps _ (fun s => s.counters) (fun s x => by simp) _ s
@[simp] theorem loadAccepted_mode (c : Commit) (n : NodeIdx) (l : List Item) : (s.loadAccepted c n l).mode = s.mode :=
  by unfold State.loadAccepted; exact foldl_keeps _ (fun s => s.mode) (fun s x => by simp) _ s
@[simp] theorem loadAccepted_params (c : Commit) (n : NodeIdx) (l : List Item) : (s.loadAccepted c n l).params = s.params :=
  by unfold State.loadAccepted; exact foldl_keeps _ (fun s => s.params) (fun s x => by simp) _ s
@[simp] theorem loadAccepted_resetLow (c : Commit) (n : NodeIdx) (l : List Item) : (s.loadAccepted c n l).resetLow = s.resetLow :=
  by unfold State.loadAccepted; exact foldl_keeps _ (fun s => s.resetLow) (fun s x => by simp) _ s
@[simp] theorem loadAccepted_freeIndex (c : Commit) (n : NodeIdx) (l : List Item) : (s.loadAccepted c n l).freeIndex = s.freeIndex :=
  by unfold State.loadAccepted; exact foldl_keeps _ (fun s => s.freeIndex) (fun s x => by simp) _ s
@[simp] theorem loadAccepted_pending (c : Commit) (n : NodeIdx) (l : List Item) : (s.loadAccepted c n l).pending = s.pending :=
  by unfold State.loadAccepted; exact foldl_keeps _ (fun s => s.pending) (fun s x => by simp) _ s
@[simp] theorem loadAccepted_ce_clearOwed (c : Commit) (n : NodeIdx) (l : List Item) : (s.loadAccepted c n l).ce.clearOwed = s.ce.clearOwed :=
  by unfold State.loadAccepted; exact foldl_keeps _ (fun s => s.ce.clearOwed) (fun s x => by simp) _ s
@[simp] theorem loadAccepted_ce_queue (c : Commit) (n : NodeIdx) (l : List Item) : (s.loadAccepted c n l).ce.queue = s.ce.queue :=
  by unfold State.loadAccepted; exact foldl_keeps _ (fun s => s.ce.queue) (fun s x => by simp) _ s

/-! ### endTake -/

@[simp] theorem endTake_pou (c : Commit) (t : Byte) : (s.endTake c t).pou = s.pou :=
  by simpa [State.endTake] using foldl_keeps _ (fun s => s.pou) (fun s x => by simp) _ s
@[simp] theorem endTake_rs (c : Commit) (t : Byte) : (s.endTake c t).rs = s.rs :=
  by simpa [State.endTake] using foldl_keeps _ (fun s => s.rs) (fun s x => by simp) _ s
@[simp] theorem endTake_dbc (c : Commit) (t : Byte) : (s.endTake c t).dbc = s.dbc :=
  by simpa [State.endTake] using foldl_keeps _ (fun s => s.dbc) (fun s x => by simp) _ s
@[simp] theorem endTake_mode (c : Commit) (t : Byte) : (s.endTake c t).mode = s.mode :=
  by simpa [State.endTake] using foldl_keeps _ (fun s => s.mode) (fun s x => by simp) _ s
@[simp] theorem endTake_params (c : Commit) (t : Byte) : (s.endTake c t).params = s.params :=
  by simpa [State.endTake] using foldl_keeps _ (fun s => s.params) (fun s x => by simp) _ s
@[simp] theorem endTake_resetLow (c : Commit) (t : Byte) : (s.endTake c t).resetLow = s.resetLow :=
  by simpa [State.endTake] using foldl_keeps _ (fun s => s.resetLow) (fun s x => by simp) _ s
@[simp] theorem endTake_freeIndex (c : Commit) (t : Byte) : (s.endTake c t).freeIndex = s.freeIndex :=
  by simpa [State.endTake] using foldl_keeps _ (fun s => s.freeIndex) (fun s x => by simp) _ s
@[simp] theorem endTake_pending (c : Commit) (t : Byte) : (s.endTake c t).pending = s.pending :=
  by simpa [State.endTake] using foldl_keeps _ (fun s => s.pending) (fun s x => by simp) _ s
@[simp] theorem endTake_exq_mask (c : Commit) (t : Byte) : (s.endTake c t).exq.mask = s.exq.mask :=
  by simpa [State.endTake] using foldl_keeps _ (fun s => s.exq.mask) (fun s x => by simp) _ s
@[simp] theorem endTake_tp_closing (c : Commit) (t : Byte) : (s.endTake c t).tp.closing = s.tp.closing :=
  by simpa [State.endTake] using foldl_keeps _ (fun s => s.tp.closing) (fun s x => by simp) _ s
@[simp] theorem endTake_ce_clearOwed (c : Commit) (t : Byte) : (s.endTake c t).ce.clearOwed = s.ce.clearOwed :=
  by simpa [State.endTake] using foldl_keeps _ (fun s => s.ce.clearOwed) (fun s x => by simp) _ s

/-! ### loadOutcome -/

@[simp] theorem loadOutcome_pou (n : NodeIdx) (t : Byte) (l : List Item) (o : DropOutcome) : (s.loadOutcome n t l o).pou = s.pou :=
  by unfold State.loadOutcome; split <;> (try split_ifs) <;> (try split) <;> simp
@[simp] theorem loadOutcome_rs (n : NodeIdx) (t : Byte) (l : List Item) (o : DropOutcome) : (s.loadOutcome n t l o).rs = s.rs :=
  by unfold State.loadOutcome; split <;> (try split_ifs) <;> (try split) <;> simp
@[simp] theorem loadOutcome_claims (n : NodeIdx) (t : Byte) (l : List Item) (o : DropOutcome) : (s.loadOutcome n t l o).claims = s.claims :=
  by unfold State.loadOutcome; split <;> (try split_ifs) <;> (try split) <;> simp
@[simp] theorem loadOutcome_dbc (n : NodeIdx) (t : Byte) (l : List Item) (o : DropOutcome) : (s.loadOutcome n t l o).dbc = s.dbc :=
  by unfold State.loadOutcome; split <;> (try split_ifs) <;> (try split) <;> simp
@[simp] theorem loadOutcome_mode (n : NodeIdx) (t : Byte) (l : List Item) (o : DropOutcome) : (s.loadOutcome n t l o).mode = s.mode :=
  by unfold State.loadOutcome; split <;> (try split_ifs) <;> (try split) <;> simp
@[simp] theorem loadOutcome_params (n : NodeIdx) (t : Byte) (l : List Item) (o : DropOutcome) : (s.loadOutcome n t l o).params = s.params :=
  by unfold State.loadOutcome; split <;> (try split_ifs) <;> (try split) <;> simp
@[simp] theorem loadOutcome_resetLow (n : NodeIdx) (t : Byte) (l : List Item) (o : DropOutcome) : (s.loadOutcome n t l o).resetLow = s.resetLow :=
  by unfold State.loadOutcome; split <;> (try split_ifs) <;> (try split) <;> simp
@[simp] theorem loadOutcome_freeIndex (n : NodeIdx) (t : Byte) (l : List Item) (o : DropOutcome) : (s.loadOutcome n t l o).freeIndex = s.freeIndex :=
  by unfold State.loadOutcome; split <;> (try split_ifs) <;> (try split) <;> simp
@[simp] theorem loadOutcome_pending (n : NodeIdx) (t : Byte) (l : List Item) (o : DropOutcome) : (s.loadOutcome n t l o).pending = s.pending :=
  by unfold State.loadOutcome; split <;> (try split_ifs) <;> (try split) <;> simp
@[simp] theorem loadOutcome_exq_queue (n : NodeIdx) (t : Byte) (l : List Item) (o : DropOutcome) : (s.loadOutcome n t l o).exq.queue = s.exq.queue :=
  by unfold State.loadOutcome; split <;> (try split_ifs) <;> (try split) <;> simp
@[simp] theorem loadOutcome_exq_mask (n : NodeIdx) (t : Byte) (l : List Item) (o : DropOutcome) : (s.loadOutcome n t l o).exq.mask = s.exq.mask :=
  by unfold State.loadOutcome; split <;> (try split_ifs) <;> (try split) <;> simp
@[simp] theorem loadOutcome_tp_closing (n : NodeIdx) (t : Byte) (l : List Item) (o : DropOutcome) : (s.loadOutcome n t l o).tp.closing = s.tp.closing :=
  by unfold State.loadOutcome; split <;> (try split_ifs) <;> (try split) <;> simp
@[simp] theorem loadOutcome_ce_clearOwed (n : NodeIdx) (t : Byte) (l : List Item) (o : DropOutcome) : (s.loadOutcome n t l o).ce.clearOwed = s.ce.clearOwed :=
  by unfold State.loadOutcome; split <;> (try split_ifs) <;> (try split) <;> simp

/-! ### takeEnded -/

@[simp] theorem takeEnded_pou (t : Byte) : (s.takeEnded t).pou = s.pou :=
  by unfold State.takeEnded; split <;> (try split_ifs) <;> simp
@[simp] theorem takeEnded_rs (t : Byte) : (s.takeEnded t).rs = s.rs :=
  by unfold State.takeEnded; split <;> (try split_ifs) <;> simp
@[simp] theorem takeEnded_dbc (t : Byte) : (s.takeEnded t).dbc = s.dbc :=
  by unfold State.takeEnded; split <;> (try split_ifs) <;> simp
@[simp] theorem takeEnded_mode (t : Byte) : (s.takeEnded t).mode = s.mode :=
  by unfold State.takeEnded; split <;> (try split_ifs) <;> simp
@[simp] theorem takeEnded_params (t : Byte) : (s.takeEnded t).params = s.params :=
  by unfold State.takeEnded; split <;> (try split_ifs) <;> simp
@[simp] theorem takeEnded_resetLow (t : Byte) : (s.takeEnded t).resetLow = s.resetLow :=
  by unfold State.takeEnded; split <;> (try split_ifs) <;> simp
@[simp] theorem takeEnded_freeIndex (t : Byte) : (s.takeEnded t).freeIndex = s.freeIndex :=
  by unfold State.takeEnded; split <;> (try split_ifs) <;> simp
@[simp] theorem takeEnded_pending (t : Byte) : (s.takeEnded t).pending = s.pending :=
  by unfold State.takeEnded; split <;> (try split_ifs) <;> simp
@[simp] theorem takeEnded_exq_mask (t : Byte) : (s.takeEnded t).exq.mask = s.exq.mask :=
  by unfold State.takeEnded; split <;> (try split_ifs) <;> simp
@[simp] theorem takeEnded_tp_closing (t : Byte) : (s.takeEnded t).tp.closing = s.tp.closing :=
  by unfold State.takeEnded; split <;> (try split_ifs) <;> simp
@[simp] theorem takeEnded_ce_clearOwed (t : Byte) : (s.takeEnded t).ce.clearOwed = s.ce.clearOwed :=
  by unfold State.takeEnded; split <;> (try split_ifs) <;> simp

/-! ### abandonEnded -/

@[simp] theorem abandonEnded_pou (t : Byte) : (s.abandonEnded t).pou = s.pou :=
  by unfold State.abandonEnded; split <;> (try split) <;> (try split_ifs) <;> simp
@[simp] theorem abandonEnded_rs (t : Byte) : (s.abandonEnded t).rs = s.rs :=
  by unfold State.abandonEnded; split <;> (try split) <;> (try split_ifs) <;> simp
@[simp] theorem abandonEnded_claims (t : Byte) : (s.abandonEnded t).claims = s.claims :=
  by unfold State.abandonEnded; split <;> (try split) <;> (try split_ifs) <;> simp
@[simp] theorem abandonEnded_dbc (t : Byte) : (s.abandonEnded t).dbc = s.dbc :=
  by unfold State.abandonEnded; split <;> (try split) <;> (try split_ifs) <;> simp
@[simp] theorem abandonEnded_mode (t : Byte) : (s.abandonEnded t).mode = s.mode :=
  by unfold State.abandonEnded; split <;> (try split) <;> (try split_ifs) <;> simp
@[simp] theorem abandonEnded_params (t : Byte) : (s.abandonEnded t).params = s.params :=
  by unfold State.abandonEnded; split <;> (try split) <;> (try split_ifs) <;> simp
@[simp] theorem abandonEnded_resetLow (t : Byte) : (s.abandonEnded t).resetLow = s.resetLow :=
  by unfold State.abandonEnded; split <;> (try split) <;> (try split_ifs) <;> simp
@[simp] theorem abandonEnded_freeIndex (t : Byte) : (s.abandonEnded t).freeIndex = s.freeIndex :=
  by unfold State.abandonEnded; split <;> (try split) <;> (try split_ifs) <;> simp
@[simp] theorem abandonEnded_pending (t : Byte) : (s.abandonEnded t).pending = s.pending :=
  by unfold State.abandonEnded; split <;> (try split) <;> (try split_ifs) <;> simp
@[simp] theorem abandonEnded_exq_queue (t : Byte) : (s.abandonEnded t).exq.queue = s.exq.queue :=
  by unfold State.abandonEnded; split <;> (try split) <;> (try split_ifs) <;> simp
@[simp] theorem abandonEnded_exq_mask (t : Byte) : (s.abandonEnded t).exq.mask = s.exq.mask :=
  by unfold State.abandonEnded; split <;> (try split) <;> (try split_ifs) <;> simp
@[simp] theorem abandonEnded_tp_closing (t : Byte) : (s.abandonEnded t).tp.closing = s.tp.closing :=
  by unfold State.abandonEnded; split <;> (try split) <;> (try split_ifs) <;> simp
@[simp] theorem abandonEnded_ce_clearOwed (t : Byte) : (s.abandonEnded t).ce.clearOwed = s.ce.clearOwed :=
  by unfold State.abandonEnded; split <;> (try split) <;> (try split_ifs) <;> simp

/-! ### clearEnded -/

@[simp] theorem clearEnded_nodes : s.clearEnded.nodes = s.nodes :=
  by simp [State.clearEnded]
@[simp] theorem clearEnded_tp : s.clearEnded.tp = s.tp :=
  by simp [State.clearEnded]
@[simp] theorem clearEnded_pou : s.clearEnded.pou = s.pou :=
  by simp [State.clearEnded]
@[simp] theorem clearEnded_rs : s.clearEnded.rs = s.rs :=
  by simp [State.clearEnded]
@[simp] theorem clearEnded_claims : s.clearEnded.claims = s.claims :=
  by simp [State.clearEnded]
@[simp] theorem clearEnded_dbc : s.clearEnded.dbc = s.dbc :=
  by simp [State.clearEnded]
@[simp] theorem clearEnded_exq : s.clearEnded.exq = s.exq :=
  by simp [State.clearEnded]
@[simp] theorem clearEnded_counters : s.clearEnded.counters = s.counters :=
  by simp [State.clearEnded]
@[simp] theorem clearEnded_mode : s.clearEnded.mode = s.mode :=
  by simp [State.clearEnded]
@[simp] theorem clearEnded_params : s.clearEnded.params = s.params :=
  by simp [State.clearEnded]
@[simp] theorem clearEnded_resetLow : s.clearEnded.resetLow = s.resetLow :=
  by simp [State.clearEnded]
@[simp] theorem clearEnded_freeIndex : s.clearEnded.freeIndex = s.freeIndex :=
  by simp [State.clearEnded]
@[simp] theorem clearEnded_pending : s.clearEnded.pending = s.pending :=
  by simp [State.clearEnded]

/-! ### healthValid -/

@[simp] theorem healthValid_tp (n : NodeIdx) (r a : Bool) (c : HoldClass) : (s.healthValid n r a c).tp = s.tp :=
  by unfold State.healthValid; dsimp only; split <;> simp
@[simp] theorem healthValid_pou (n : NodeIdx) (r a : Bool) (c : HoldClass) : (s.healthValid n r a c).pou = s.pou :=
  by unfold State.healthValid; dsimp only; split <;> simp
@[simp] theorem healthValid_rs (n : NodeIdx) (r a : Bool) (c : HoldClass) : (s.healthValid n r a c).rs = s.rs :=
  by unfold State.healthValid; dsimp only; split <;> simp
@[simp] theorem healthValid_claims (n : NodeIdx) (r a : Bool) (c : HoldClass) : (s.healthValid n r a c).claims = s.claims :=
  by unfold State.healthValid; dsimp only; split <;> simp
@[simp] theorem healthValid_stages (n : NodeIdx) (r a : Bool) (c : HoldClass) : (s.healthValid n r a c).stages = s.stages :=
  by unfold State.healthValid; dsimp only; split <;> simp
@[simp] theorem healthValid_ce (n : NodeIdx) (r a : Bool) (c : HoldClass) : (s.healthValid n r a c).ce = s.ce :=
  by unfold State.healthValid; dsimp only; split <;> simp
@[simp] theorem healthValid_dbc (n : NodeIdx) (r a : Bool) (c : HoldClass) : (s.healthValid n r a c).dbc = s.dbc :=
  by unfold State.healthValid; dsimp only; split <;> simp
@[simp] theorem healthValid_mode (n : NodeIdx) (r a : Bool) (c : HoldClass) : (s.healthValid n r a c).mode = s.mode :=
  by unfold State.healthValid; dsimp only; split <;> simp
@[simp] theorem healthValid_params (n : NodeIdx) (r a : Bool) (c : HoldClass) : (s.healthValid n r a c).params = s.params :=
  by unfold State.healthValid; dsimp only; split <;> simp
@[simp] theorem healthValid_resetLow (n : NodeIdx) (r a : Bool) (c : HoldClass) : (s.healthValid n r a c).resetLow = s.resetLow :=
  by unfold State.healthValid; dsimp only; split <;> simp
@[simp] theorem healthValid_freeIndex (n : NodeIdx) (r a : Bool) (c : HoldClass) : (s.healthValid n r a c).freeIndex = s.freeIndex :=
  by unfold State.healthValid; dsimp only; split <;> simp
@[simp] theorem healthValid_pending (n : NodeIdx) (r a : Bool) (c : HoldClass) : (s.healthValid n r a c).pending = s.pending :=
  by unfold State.healthValid; dsimp only; split <;> simp
@[simp] theorem healthValid_exq_mask (n : NodeIdx) (r a : Bool) (c : HoldClass) : (s.healthValid n r a c).exq.mask = s.exq.mask :=
  by unfold State.healthValid; dsimp only; split <;> simp

/-! ### healthNoReply -/

@[simp] theorem healthNoReply_tp (n : NodeIdx) (r : Bool) : (s.healthNoReply n r).tp = s.tp :=
  by unfold State.healthNoReply; dsimp only; split <;> (try split_ifs) <;> simp
@[simp] theorem healthNoReply_pou (n : NodeIdx) (r : Bool) : (s.healthNoReply n r).pou = s.pou :=
  by unfold State.healthNoReply; dsimp only; split <;> (try split_ifs) <;> simp
@[simp] theorem healthNoReply_rs (n : NodeIdx) (r : Bool) : (s.healthNoReply n r).rs = s.rs :=
  by unfold State.healthNoReply; dsimp only; split <;> (try split_ifs) <;> simp
@[simp] theorem healthNoReply_claims (n : NodeIdx) (r : Bool) : (s.healthNoReply n r).claims = s.claims :=
  by unfold State.healthNoReply; dsimp only; split <;> (try split_ifs) <;> simp
@[simp] theorem healthNoReply_stages (n : NodeIdx) (r : Bool) : (s.healthNoReply n r).stages = s.stages :=
  by unfold State.healthNoReply; dsimp only; split <;> (try split_ifs) <;> simp
@[simp] theorem healthNoReply_ce (n : NodeIdx) (r : Bool) : (s.healthNoReply n r).ce = s.ce :=
  by unfold State.healthNoReply; dsimp only; split <;> (try split_ifs) <;> simp
@[simp] theorem healthNoReply_dbc (n : NodeIdx) (r : Bool) : (s.healthNoReply n r).dbc = s.dbc :=
  by unfold State.healthNoReply; dsimp only; split <;> (try split_ifs) <;> simp
@[simp] theorem healthNoReply_mode (n : NodeIdx) (r : Bool) : (s.healthNoReply n r).mode = s.mode :=
  by unfold State.healthNoReply; dsimp only; split <;> (try split_ifs) <;> simp
@[simp] theorem healthNoReply_params (n : NodeIdx) (r : Bool) : (s.healthNoReply n r).params = s.params :=
  by unfold State.healthNoReply; dsimp only; split <;> (try split_ifs) <;> simp
@[simp] theorem healthNoReply_resetLow (n : NodeIdx) (r : Bool) : (s.healthNoReply n r).resetLow = s.resetLow :=
  by unfold State.healthNoReply; dsimp only; split <;> (try split_ifs) <;> simp
@[simp] theorem healthNoReply_freeIndex (n : NodeIdx) (r : Bool) : (s.healthNoReply n r).freeIndex = s.freeIndex :=
  by unfold State.healthNoReply; dsimp only; split <;> (try split_ifs) <;> simp
@[simp] theorem healthNoReply_pending (n : NodeIdx) (r : Bool) : (s.healthNoReply n r).pending = s.pending :=
  by unfold State.healthNoReply; dsimp only; split <;> (try split_ifs) <;> simp
@[simp] theorem healthNoReply_exq_mask (n : NodeIdx) (r : Bool) : (s.healthNoReply n r).exq.mask = s.exq.mask :=
  by unfold State.healthNoReply; dsimp only; split <;> (try split_ifs) <;> simp

/-! ### health -/

@[simp] theorem health_tp (n : NodeIdx) (r : Bool) (o : DropOutcome) : (s.health n r o).tp = s.tp :=
  by unfold State.health; split <;> simp
@[simp] theorem health_pou (n : NodeIdx) (r : Bool) (o : DropOutcome) : (s.health n r o).pou = s.pou :=
  by unfold State.health; split <;> simp
@[simp] theorem health_rs (n : NodeIdx) (r : Bool) (o : DropOutcome) : (s.health n r o).rs = s.rs :=
  by unfold State.health; split <;> simp
@[simp] theorem health_claims (n : NodeIdx) (r : Bool) (o : DropOutcome) : (s.health n r o).claims = s.claims :=
  by unfold State.health; split <;> simp
@[simp] theorem health_stages (n : NodeIdx) (r : Bool) (o : DropOutcome) : (s.health n r o).stages = s.stages :=
  by unfold State.health; split <;> simp
@[simp] theorem health_ce (n : NodeIdx) (r : Bool) (o : DropOutcome) : (s.health n r o).ce = s.ce :=
  by unfold State.health; split <;> simp
@[simp] theorem health_dbc (n : NodeIdx) (r : Bool) (o : DropOutcome) : (s.health n r o).dbc = s.dbc :=
  by unfold State.health; split <;> simp
@[simp] theorem health_mode (n : NodeIdx) (r : Bool) (o : DropOutcome) : (s.health n r o).mode = s.mode :=
  by unfold State.health; split <;> simp
@[simp] theorem health_params (n : NodeIdx) (r : Bool) (o : DropOutcome) : (s.health n r o).params = s.params :=
  by unfold State.health; split <;> simp
@[simp] theorem health_resetLow (n : NodeIdx) (r : Bool) (o : DropOutcome) : (s.health n r o).resetLow = s.resetLow :=
  by unfold State.health; split <;> simp
@[simp] theorem health_freeIndex (n : NodeIdx) (r : Bool) (o : DropOutcome) : (s.health n r o).freeIndex = s.freeIndex :=
  by unfold State.health; split <;> simp
@[simp] theorem health_pending (n : NodeIdx) (r : Bool) (o : DropOutcome) : (s.health n r o).pending = s.pending :=
  by unfold State.health; split <;> simp
@[simp] theorem health_exq_mask (n : NodeIdx) (r : Bool) (o : DropOutcome) : (s.health n r o).exq.mask = s.exq.mask :=
  by unfold State.health; split <;> simp

/-! ### renewOutcome -/

@[simp] theorem renewOutcome_nodes (n : NodeIdx) (o : DropOutcome) : (s.renewOutcome n o).nodes = s.nodes :=
  by unfold State.renewOutcome; split_ifs <;> (try split) <;> simp
@[simp] theorem renewOutcome_tp (n : NodeIdx) (o : DropOutcome) : (s.renewOutcome n o).tp = s.tp :=
  by unfold State.renewOutcome; split_ifs <;> (try split) <;> simp
@[simp] theorem renewOutcome_pou (n : NodeIdx) (o : DropOutcome) : (s.renewOutcome n o).pou = s.pou :=
  by unfold State.renewOutcome; split_ifs <;> (try split) <;> simp
@[simp] theorem renewOutcome_rs (n : NodeIdx) (o : DropOutcome) : (s.renewOutcome n o).rs = s.rs :=
  by unfold State.renewOutcome; split_ifs <;> (try split) <;> simp
@[simp] theorem renewOutcome_claims (n : NodeIdx) (o : DropOutcome) : (s.renewOutcome n o).claims = s.claims :=
  by unfold State.renewOutcome; split_ifs <;> (try split) <;> simp
@[simp] theorem renewOutcome_stages (n : NodeIdx) (o : DropOutcome) : (s.renewOutcome n o).stages = s.stages :=
  by unfold State.renewOutcome; split_ifs <;> (try split) <;> simp
@[simp] theorem renewOutcome_ce (n : NodeIdx) (o : DropOutcome) : (s.renewOutcome n o).ce = s.ce :=
  by unfold State.renewOutcome; split_ifs <;> (try split) <;> simp
@[simp] theorem renewOutcome_dbc (n : NodeIdx) (o : DropOutcome) : (s.renewOutcome n o).dbc = s.dbc :=
  by unfold State.renewOutcome; split_ifs <;> (try split) <;> simp
@[simp] theorem renewOutcome_mode (n : NodeIdx) (o : DropOutcome) : (s.renewOutcome n o).mode = s.mode :=
  by unfold State.renewOutcome; split_ifs <;> (try split) <;> simp
@[simp] theorem renewOutcome_params (n : NodeIdx) (o : DropOutcome) : (s.renewOutcome n o).params = s.params :=
  by unfold State.renewOutcome; split_ifs <;> (try split) <;> simp
@[simp] theorem renewOutcome_resetLow (n : NodeIdx) (o : DropOutcome) : (s.renewOutcome n o).resetLow = s.resetLow :=
  by unfold State.renewOutcome; split_ifs <;> (try split) <;> simp
@[simp] theorem renewOutcome_freeIndex (n : NodeIdx) (o : DropOutcome) : (s.renewOutcome n o).freeIndex = s.freeIndex :=
  by unfold State.renewOutcome; split_ifs <;> (try split) <;> simp
@[simp] theorem renewOutcome_pending (n : NodeIdx) (o : DropOutcome) : (s.renewOutcome n o).pending = s.pending :=
  by unfold State.renewOutcome; split_ifs <;> (try split) <;> simp
@[simp] theorem renewOutcome_exq_mask (n : NodeIdx) (o : DropOutcome) : (s.renewOutcome n o).exq.mask = s.exq.mask :=
  by unfold State.renewOutcome; split_ifs <;> (try split) <;> simp

/-! ### accrueAll -/

@[simp] theorem accrueAll_tp (p : Fin 4) : (s.accrueAll p).tp = s.tp :=
  foldl_keeps _ State.tp (fun s x => by simp) _ s
@[simp] theorem accrueAll_pou (p : Fin 4) : (s.accrueAll p).pou = s.pou :=
  foldl_keeps _ State.pou (fun s x => by simp) _ s
@[simp] theorem accrueAll_rs (p : Fin 4) : (s.accrueAll p).rs = s.rs :=
  foldl_keeps _ State.rs (fun s x => by simp) _ s
@[simp] theorem accrueAll_claims (p : Fin 4) : (s.accrueAll p).claims = s.claims :=
  foldl_keeps _ State.claims (fun s x => by simp) _ s
@[simp] theorem accrueAll_stages (p : Fin 4) : (s.accrueAll p).stages = s.stages :=
  foldl_keeps _ State.stages (fun s x => by simp) _ s
@[simp] theorem accrueAll_ce (p : Fin 4) : (s.accrueAll p).ce = s.ce :=
  foldl_keeps _ State.ce (fun s x => by simp) _ s
@[simp] theorem accrueAll_dbc (p : Fin 4) : (s.accrueAll p).dbc = s.dbc :=
  foldl_keeps _ State.dbc (fun s x => by simp) _ s
@[simp] theorem accrueAll_exq (p : Fin 4) : (s.accrueAll p).exq = s.exq :=
  foldl_keeps _ State.exq (fun s x => by simp) _ s
@[simp] theorem accrueAll_counters (p : Fin 4) : (s.accrueAll p).counters = s.counters :=
  foldl_keeps _ State.counters (fun s x => by simp) _ s
@[simp] theorem accrueAll_mode (p : Fin 4) : (s.accrueAll p).mode = s.mode :=
  foldl_keeps _ State.mode (fun s x => by simp) _ s
@[simp] theorem accrueAll_params (p : Fin 4) : (s.accrueAll p).params = s.params :=
  foldl_keeps _ State.params (fun s x => by simp) _ s
@[simp] theorem accrueAll_resetLow (p : Fin 4) : (s.accrueAll p).resetLow = s.resetLow :=
  foldl_keeps _ State.resetLow (fun s x => by simp) _ s
@[simp] theorem accrueAll_freeIndex (p : Fin 4) : (s.accrueAll p).freeIndex = s.freeIndex :=
  foldl_keeps _ State.freeIndex (fun s x => by simp) _ s
@[simp] theorem accrueAll_pending (p : Fin 4) : (s.accrueAll p).pending = s.pending :=
  foldl_keeps _ State.pending (fun s x => by simp) _ s

/-! ### accruePhase -/

@[simp] theorem accruePhase_tp : s.accruePhase.tp = s.tp :=
  by unfold State.accruePhase; split_ifs <;> simp
@[simp] theorem accruePhase_pou : s.accruePhase.pou = s.pou :=
  by unfold State.accruePhase; split_ifs <;> simp
@[simp] theorem accruePhase_rs : s.accruePhase.rs = s.rs :=
  by unfold State.accruePhase; split_ifs <;> simp
@[simp] theorem accruePhase_claims : s.accruePhase.claims = s.claims :=
  by unfold State.accruePhase; split_ifs <;> simp
@[simp] theorem accruePhase_stages : s.accruePhase.stages = s.stages :=
  by unfold State.accruePhase; split_ifs <;> simp
@[simp] theorem accruePhase_ce : s.accruePhase.ce = s.ce :=
  by unfold State.accruePhase; split_ifs <;> simp
@[simp] theorem accruePhase_dbc : s.accruePhase.dbc = s.dbc :=
  by unfold State.accruePhase; split_ifs <;> simp
@[simp] theorem accruePhase_exq : s.accruePhase.exq = s.exq :=
  by unfold State.accruePhase; split_ifs <;> simp
@[simp] theorem accruePhase_counters : s.accruePhase.counters = s.counters :=
  by unfold State.accruePhase; split_ifs <;> simp
@[simp] theorem accruePhase_mode : s.accruePhase.mode = s.mode :=
  by unfold State.accruePhase; split_ifs <;> simp
@[simp] theorem accruePhase_params : s.accruePhase.params = s.params :=
  by unfold State.accruePhase; split_ifs <;> simp
@[simp] theorem accruePhase_resetLow : s.accruePhase.resetLow = s.resetLow :=
  by unfold State.accruePhase; split_ifs <;> simp
@[simp] theorem accruePhase_freeIndex : s.accruePhase.freeIndex = s.freeIndex :=
  by unfold State.accruePhase; split_ifs <;> simp
@[simp] theorem accruePhase_pending : s.accruePhase.pending = s.pending :=
  by unfold State.accruePhase; split_ifs <;> simp

/-! ### agePhase -/

@[simp] theorem agePhase_nodes : s.agePhase.nodes = s.nodes :=
  by unfold State.agePhase; split_ifs <;> simp
@[simp] theorem agePhase_tp : s.agePhase.tp = s.tp :=
  by unfold State.agePhase; split_ifs <;> simp
@[simp] theorem agePhase_pou : s.agePhase.pou = s.pou :=
  by unfold State.agePhase; split_ifs <;> simp
@[simp] theorem agePhase_rs : s.agePhase.rs = s.rs :=
  by unfold State.agePhase; split_ifs <;> simp
@[simp] theorem agePhase_ce : s.agePhase.ce = s.ce :=
  by unfold State.agePhase; split_ifs <;> simp
@[simp] theorem agePhase_dbc : s.agePhase.dbc = s.dbc :=
  by unfold State.agePhase; split_ifs <;> simp
@[simp] theorem agePhase_exq : s.agePhase.exq = s.exq :=
  by unfold State.agePhase; split_ifs <;> simp
@[simp] theorem agePhase_counters : s.agePhase.counters = s.counters :=
  by unfold State.agePhase; split_ifs <;> simp
@[simp] theorem agePhase_mode : s.agePhase.mode = s.mode :=
  by unfold State.agePhase; split_ifs <;> simp
@[simp] theorem agePhase_params : s.agePhase.params = s.params :=
  by unfold State.agePhase; split_ifs <;> simp
@[simp] theorem agePhase_resetLow : s.agePhase.resetLow = s.resetLow :=
  by unfold State.agePhase; split_ifs <;> simp
@[simp] theorem agePhase_freeIndex : s.agePhase.freeIndex = s.freeIndex :=
  by unfold State.agePhase; split_ifs <;> simp
@[simp] theorem agePhase_pending : s.agePhase.pending = s.pending :=
  by unfold State.agePhase; split_ifs <;> simp

/-! ### offerGroups -/

@[simp] theorem offerGroups_nodes (a b c : List ExcBody) : (s.offerGroups a b c).nodes = s.nodes :=
  by simp [State.offerGroups]
@[simp] theorem offerGroups_tp (a b c : List ExcBody) : (s.offerGroups a b c).tp = s.tp :=
  by simp [State.offerGroups]
@[simp] theorem offerGroups_pou (a b c : List ExcBody) : (s.offerGroups a b c).pou = s.pou :=
  by simp [State.offerGroups]
@[simp] theorem offerGroups_rs (a b c : List ExcBody) : (s.offerGroups a b c).rs = s.rs :=
  by simp [State.offerGroups]
@[simp] theorem offerGroups_claims (a b c : List ExcBody) : (s.offerGroups a b c).claims = s.claims :=
  by simp [State.offerGroups]
@[simp] theorem offerGroups_stages (a b c : List ExcBody) : (s.offerGroups a b c).stages = s.stages :=
  by simp [State.offerGroups]
@[simp] theorem offerGroups_ce (a b c : List ExcBody) : (s.offerGroups a b c).ce = s.ce :=
  by simp [State.offerGroups]
@[simp] theorem offerGroups_dbc (a b c : List ExcBody) : (s.offerGroups a b c).dbc = s.dbc :=
  by simp [State.offerGroups]
@[simp] theorem offerGroups_mode (a b c : List ExcBody) : (s.offerGroups a b c).mode = s.mode :=
  by simp [State.offerGroups]
@[simp] theorem offerGroups_params (a b c : List ExcBody) : (s.offerGroups a b c).params = s.params :=
  by simp [State.offerGroups]
@[simp] theorem offerGroups_resetLow (a b c : List ExcBody) : (s.offerGroups a b c).resetLow = s.resetLow :=
  by simp [State.offerGroups]
@[simp] theorem offerGroups_pending (a b c : List ExcBody) : (s.offerGroups a b c).pending = s.pending :=
  by simp [State.offerGroups]
@[simp] theorem offerGroups_exq_mask (a b c : List ExcBody) : (s.offerGroups a b c).exq.mask = s.exq.mask :=
  by simp [State.offerGroups]

/-! ### answerForward -/

@[simp] theorem answerForward_nodes (st : Status) : (s.answerForward st).nodes = s.nodes :=
  by unfold State.answerForward; exact foldl_keeps _ (fun s => s.nodes) (fun s x => by simp) _ s
@[simp] theorem answerForward_rs (st : Status) : (s.answerForward st).rs = s.rs :=
  by unfold State.answerForward; exact foldl_keeps _ (fun s => s.rs) (fun s x => by simp) _ s
@[simp] theorem answerForward_claims (st : Status) : (s.answerForward st).claims = s.claims :=
  by unfold State.answerForward; exact foldl_keeps _ (fun s => s.claims) (fun s x => by simp) _ s
@[simp] theorem answerForward_stages (st : Status) : (s.answerForward st).stages = s.stages :=
  by unfold State.answerForward; exact foldl_keeps _ (fun s => s.stages) (fun s x => by simp) _ s
@[simp] theorem answerForward_ce (st : Status) : (s.answerForward st).ce = s.ce :=
  by unfold State.answerForward; exact foldl_keeps _ (fun s => s.ce) (fun s x => by simp) _ s
@[simp] theorem answerForward_dbc (st : Status) : (s.answerForward st).dbc = s.dbc :=
  by unfold State.answerForward; exact foldl_keeps _ (fun s => s.dbc) (fun s x => by simp) _ s
@[simp] theorem answerForward_mode (st : Status) : (s.answerForward st).mode = s.mode :=
  by unfold State.answerForward; exact foldl_keeps _ (fun s => s.mode) (fun s x => by simp) _ s
@[simp] theorem answerForward_params (st : Status) : (s.answerForward st).params = s.params :=
  by unfold State.answerForward; exact foldl_keeps _ (fun s => s.params) (fun s x => by simp) _ s
@[simp] theorem answerForward_resetLow (st : Status) : (s.answerForward st).resetLow = s.resetLow :=
  by unfold State.answerForward; exact foldl_keeps _ (fun s => s.resetLow) (fun s x => by simp) _ s
@[simp] theorem answerForward_freeIndex (st : Status) : (s.answerForward st).freeIndex = s.freeIndex :=
  by unfold State.answerForward; exact foldl_keeps _ (fun s => s.freeIndex) (fun s x => by simp) _ s
@[simp] theorem answerForward_pending (st : Status) : (s.answerForward st).pending = s.pending :=
  by unfold State.answerForward; exact foldl_keeps _ (fun s => s.pending) (fun s x => by simp) _ s
@[simp] theorem answerForward_exq_queue (st : Status) : (s.answerForward st).exq.queue = s.exq.queue :=
  by unfold State.answerForward; exact foldl_keeps _ (fun s => s.exq.queue) (fun s x => by simp) _ s
@[simp] theorem answerForward_exq_mask (st : Status) : (s.answerForward st).exq.mask = s.exq.mask :=
  by unfold State.answerForward; exact foldl_keeps _ (fun s => s.exq.mask) (fun s x => by simp) _ s
@[simp] theorem answerForward_tp_closing (st : Status) : (s.answerForward st).tp.closing = s.tp.closing :=
  by unfold State.answerForward; exact foldl_keeps _ (fun s => s.tp.closing) (fun s x => by simp) _ s
@[simp] theorem answerForward_pou_inHand (st : Status) : (s.answerForward st).pou.inHand = s.pou.inHand :=
  by unfold State.answerForward; exact foldl_keeps _ (fun s => s.pou.inHand) (fun s x => by simp) _ s
@[simp] theorem answerForward_pou_summary (st : Status) : (s.answerForward st).pou.summary = s.pou.summary :=
  by unfold State.answerForward; exact foldl_keeps _ (fun s => s.pou.summary) (fun s x => by simp) _ s
@[simp] theorem answerForward_pou_lastRefusal (st : Status) : (s.answerForward st).pou.lastRefusal = s.pou.lastRefusal :=
  by unfold State.answerForward; exact foldl_keeps _ (fun s => s.pou.lastRefusal) (fun s x => by simp) _ s

/-! ### reopenStage -/

@[simp] theorem reopenStage_nodes (o : Originator) : (s.reopenStage o).nodes = s.nodes :=
  by simp [State.reopenStage]
@[simp] theorem reopenStage_pou (o : Originator) : (s.reopenStage o).pou = s.pou :=
  by simp [State.reopenStage]
@[simp] theorem reopenStage_rs (o : Originator) : (s.reopenStage o).rs = s.rs :=
  by simp [State.reopenStage]
@[simp] theorem reopenStage_claims (o : Originator) : (s.reopenStage o).claims = s.claims :=
  by simp [State.reopenStage]
@[simp] theorem reopenStage_ce (o : Originator) : (s.reopenStage o).ce = s.ce :=
  by simp [State.reopenStage]
@[simp] theorem reopenStage_dbc (o : Originator) : (s.reopenStage o).dbc = s.dbc :=
  by simp [State.reopenStage]
@[simp] theorem reopenStage_mode (o : Originator) : (s.reopenStage o).mode = s.mode :=
  by simp [State.reopenStage]
@[simp] theorem reopenStage_params (o : Originator) : (s.reopenStage o).params = s.params :=
  by simp [State.reopenStage]
@[simp] theorem reopenStage_resetLow (o : Originator) : (s.reopenStage o).resetLow = s.resetLow :=
  by simp [State.reopenStage]
@[simp] theorem reopenStage_freeIndex (o : Originator) : (s.reopenStage o).freeIndex = s.freeIndex :=
  by simp [State.reopenStage]
@[simp] theorem reopenStage_pending (o : Originator) : (s.reopenStage o).pending = s.pending :=
  by simp [State.reopenStage]
@[simp] theorem reopenStage_exq_queue (o : Originator) : (s.reopenStage o).exq.queue = s.exq.queue :=
  by simp [State.reopenStage]
@[simp] theorem reopenStage_exq_mask (o : Originator) : (s.reopenStage o).exq.mask = s.exq.mask :=
  by simp [State.reopenStage]
@[simp] theorem reopenStage_tp_closing (o : Originator) : (s.reopenStage o).tp.closing = s.tp.closing :=
  by simp [State.reopenStage]

/-! ### reopenQueued -/

@[simp] theorem reopenQueued_nodes : s.reopenQueued.nodes = s.nodes :=
  by unfold State.reopenQueued; exact foldl_keeps _ (fun s => s.nodes) (fun s x => by simp) _ s
@[simp] theorem reopenQueued_pou : s.reopenQueued.pou = s.pou :=
  by unfold State.reopenQueued; exact foldl_keeps _ (fun s => s.pou) (fun s x => by simp) _ s
@[simp] theorem reopenQueued_rs : s.reopenQueued.rs = s.rs :=
  by unfold State.reopenQueued; exact foldl_keeps _ (fun s => s.rs) (fun s x => by simp) _ s
@[simp] theorem reopenQueued_claims : s.reopenQueued.claims = s.claims :=
  by unfold State.reopenQueued; exact foldl_keeps _ (fun s => s.claims) (fun s x => by simp) _ s
@[simp] theorem reopenQueued_dbc : s.reopenQueued.dbc = s.dbc :=
  by unfold State.reopenQueued; exact foldl_keeps _ (fun s => s.dbc) (fun s x => by simp) _ s
@[simp] theorem reopenQueued_mode : s.reopenQueued.mode = s.mode :=
  by unfold State.reopenQueued; exact foldl_keeps _ (fun s => s.mode) (fun s x => by simp) _ s
@[simp] theorem reopenQueued_params : s.reopenQueued.params = s.params :=
  by unfold State.reopenQueued; exact foldl_keeps _ (fun s => s.params) (fun s x => by simp) _ s
@[simp] theorem reopenQueued_resetLow : s.reopenQueued.resetLow = s.resetLow :=
  by unfold State.reopenQueued; exact foldl_keeps _ (fun s => s.resetLow) (fun s x => by simp) _ s
@[simp] theorem reopenQueued_freeIndex : s.reopenQueued.freeIndex = s.freeIndex :=
  by unfold State.reopenQueued; exact foldl_keeps _ (fun s => s.freeIndex) (fun s x => by simp) _ s
@[simp] theorem reopenQueued_pending : s.reopenQueued.pending = s.pending :=
  by unfold State.reopenQueued; exact foldl_keeps _ (fun s => s.pending) (fun s x => by simp) _ s
@[simp] theorem reopenQueued_exq_queue : s.reopenQueued.exq.queue = s.exq.queue :=
  by unfold State.reopenQueued; exact foldl_keeps _ (fun s => s.exq.queue) (fun s x => by simp) _ s
@[simp] theorem reopenQueued_exq_mask : s.reopenQueued.exq.mask = s.exq.mask :=
  by unfold State.reopenQueued; exact foldl_keeps _ (fun s => s.exq.mask) (fun s x => by simp) _ s
@[simp] theorem reopenQueued_tp_closing : s.reopenQueued.tp.closing = s.tp.closing :=
  by unfold State.reopenQueued; exact foldl_keeps _ (fun s => s.tp.closing) (fun s x => by simp) _ s
@[simp] theorem reopenQueued_ce_commit : s.reopenQueued.ce.commit = s.ce.commit :=
  by unfold State.reopenQueued; exact foldl_keeps _ (fun s => s.ce.commit) (fun s x => by simp) _ s
@[simp] theorem reopenQueued_ce_nextTag : s.reopenQueued.ce.nextTag = s.ce.nextTag :=
  by unfold State.reopenQueued; exact foldl_keeps _ (fun s => s.ce.nextTag) (fun s x => by simp) _ s
@[simp] theorem reopenQueued_ce_clearOwed : s.reopenQueued.ce.clearOwed = s.ce.clearOwed :=
  by unfold State.reopenQueued; exact foldl_keeps _ (fun s => s.ce.clearOwed) (fun s x => by simp) _ s

/-! ### enterDraining -/

@[simp] theorem enterDraining_nodes : s.enterDraining.nodes = s.nodes :=
  by simp [State.enterDraining]
@[simp] theorem enterDraining_rs : s.enterDraining.rs = s.rs :=
  by simp [State.enterDraining]
@[simp] theorem enterDraining_claims : s.enterDraining.claims = s.claims :=
  by simp [State.enterDraining]
@[simp] theorem enterDraining_dbc : s.enterDraining.dbc = s.dbc :=
  by simp [State.enterDraining]
@[simp] theorem enterDraining_params : s.enterDraining.params = s.params :=
  by simp [State.enterDraining]
@[simp] theorem enterDraining_resetLow : s.enterDraining.resetLow = s.resetLow :=
  by simp [State.enterDraining]
@[simp] theorem enterDraining_freeIndex : s.enterDraining.freeIndex = s.freeIndex :=
  by simp [State.enterDraining]
@[simp] theorem enterDraining_pending : s.enterDraining.pending = s.pending :=
  by simp [State.enterDraining]
@[simp] theorem enterDraining_exq_queue : s.enterDraining.exq.queue = s.exq.queue :=
  by simp [State.enterDraining]
@[simp] theorem enterDraining_exq_mask : s.enterDraining.exq.mask = s.exq.mask :=
  by simp [State.enterDraining]
@[simp] theorem enterDraining_tp_closing : s.enterDraining.tp.closing = s.tp.closing :=
  by simp [State.enterDraining]
@[simp] theorem enterDraining_pou_inHand : s.enterDraining.pou.inHand = s.pou.inHand :=
  by simp [State.enterDraining]
@[simp] theorem enterDraining_pou_summary : s.enterDraining.pou.summary = s.pou.summary :=
  by simp [State.enterDraining]
@[simp] theorem enterDraining_pou_lastRefusal : s.enterDraining.pou.lastRefusal = s.pou.lastRefusal :=
  by simp [State.enterDraining]
@[simp] theorem enterDraining_ce_commit : s.enterDraining.ce.commit = s.ce.commit :=
  by simp [State.enterDraining]
@[simp] theorem enterDraining_ce_nextTag : s.enterDraining.ce.nextTag = s.ce.nextTag :=
  by simp [State.enterDraining]
@[simp] theorem enterDraining_ce_clearOwed : s.enterDraining.ce.clearOwed = s.ce.clearOwed :=
  by simp [State.enterDraining]

/-! ### abortStage -/

@[simp] theorem abortStage_nodes (o : Originator) : (s.abortStage o).nodes = s.nodes :=
  by simp [State.abortStage]
@[simp] theorem abortStage_pou (o : Originator) : (s.abortStage o).pou = s.pou :=
  by simp [State.abortStage]
@[simp] theorem abortStage_rs (o : Originator) : (s.abortStage o).rs = s.rs :=
  by simp [State.abortStage]
@[simp] theorem abortStage_claims (o : Originator) : (s.abortStage o).claims = s.claims :=
  by simp [State.abortStage]
@[simp] theorem abortStage_ce (o : Originator) : (s.abortStage o).ce = s.ce :=
  by simp [State.abortStage]
@[simp] theorem abortStage_dbc (o : Originator) : (s.abortStage o).dbc = s.dbc :=
  by simp [State.abortStage]
@[simp] theorem abortStage_mode (o : Originator) : (s.abortStage o).mode = s.mode :=
  by simp [State.abortStage]
@[simp] theorem abortStage_params (o : Originator) : (s.abortStage o).params = s.params :=
  by simp [State.abortStage]
@[simp] theorem abortStage_resetLow (o : Originator) : (s.abortStage o).resetLow = s.resetLow :=
  by simp [State.abortStage]
@[simp] theorem abortStage_freeIndex (o : Originator) : (s.abortStage o).freeIndex = s.freeIndex :=
  by simp [State.abortStage]
@[simp] theorem abortStage_pending (o : Originator) : (s.abortStage o).pending = s.pending :=
  by simp [State.abortStage]
@[simp] theorem abortStage_exq_queue (o : Originator) : (s.abortStage o).exq.queue = s.exq.queue :=
  by simp [State.abortStage]
@[simp] theorem abortStage_exq_mask (o : Originator) : (s.abortStage o).exq.mask = s.exq.mask :=
  by simp [State.abortStage]
@[simp] theorem abortStage_tp_closing (o : Originator) : (s.abortStage o).tp.closing = s.tp.closing :=
  by simp [State.abortStage]

/-! ### abortCommit -/

@[simp] theorem abortCommit_pou : s.abortCommit.pou = s.pou :=
  by unfold State.abortCommit; split <;> simp
@[simp] theorem abortCommit_rs : s.abortCommit.rs = s.rs :=
  by unfold State.abortCommit; split <;> simp
@[simp] theorem abortCommit_claims : s.abortCommit.claims = s.claims :=
  by unfold State.abortCommit; split <;> simp
@[simp] theorem abortCommit_dbc : s.abortCommit.dbc = s.dbc :=
  by unfold State.abortCommit; split <;> simp
@[simp] theorem abortCommit_mode : s.abortCommit.mode = s.mode :=
  by unfold State.abortCommit; split <;> simp
@[simp] theorem abortCommit_params : s.abortCommit.params = s.params :=
  by unfold State.abortCommit; split <;> simp
@[simp] theorem abortCommit_resetLow : s.abortCommit.resetLow = s.resetLow :=
  by unfold State.abortCommit; split <;> simp
@[simp] theorem abortCommit_freeIndex : s.abortCommit.freeIndex = s.freeIndex :=
  by unfold State.abortCommit; split <;> simp
@[simp] theorem abortCommit_pending : s.abortCommit.pending = s.pending :=
  by unfold State.abortCommit; split <;> simp
@[simp] theorem abortCommit_exq_queue : s.abortCommit.exq.queue = s.exq.queue :=
  by unfold State.abortCommit; split <;> simp
@[simp] theorem abortCommit_exq_mask : s.abortCommit.exq.mask = s.exq.mask :=
  by unfold State.abortCommit; split <;> simp
@[simp] theorem abortCommit_tp_closing : s.abortCommit.tp.closing = s.tp.closing :=
  by unfold State.abortCommit; split <;> simp
@[simp] theorem abortCommit_ce_queue : s.abortCommit.ce.queue = s.ce.queue :=
  by unfold State.abortCommit; split <;> simp
@[simp] theorem abortCommit_ce_nextTag : s.abortCommit.ce.nextTag = s.ce.nextTag :=
  by unfold State.abortCommit; split <;> simp
@[simp] theorem abortCommit_ce_clearOwed : s.abortCommit.ce.clearOwed = s.ce.clearOwed :=
  by unfold State.abortCommit; split <;> simp

/-! ### abortQueued -/

@[simp] theorem abortQueued_nodes : s.abortQueued.nodes = s.nodes :=
  by unfold State.abortQueued; exact foldl_keeps _ (fun s => s.nodes) (fun s x => by simp) _ s
@[simp] theorem abortQueued_pou : s.abortQueued.pou = s.pou :=
  by unfold State.abortQueued; exact foldl_keeps _ (fun s => s.pou) (fun s x => by simp) _ s
@[simp] theorem abortQueued_rs : s.abortQueued.rs = s.rs :=
  by unfold State.abortQueued; exact foldl_keeps _ (fun s => s.rs) (fun s x => by simp) _ s
@[simp] theorem abortQueued_claims : s.abortQueued.claims = s.claims :=
  by unfold State.abortQueued; exact foldl_keeps _ (fun s => s.claims) (fun s x => by simp) _ s
@[simp] theorem abortQueued_dbc : s.abortQueued.dbc = s.dbc :=
  by unfold State.abortQueued; exact foldl_keeps _ (fun s => s.dbc) (fun s x => by simp) _ s
@[simp] theorem abortQueued_mode : s.abortQueued.mode = s.mode :=
  by unfold State.abortQueued; exact foldl_keeps _ (fun s => s.mode) (fun s x => by simp) _ s
@[simp] theorem abortQueued_params : s.abortQueued.params = s.params :=
  by unfold State.abortQueued; exact foldl_keeps _ (fun s => s.params) (fun s x => by simp) _ s
@[simp] theorem abortQueued_resetLow : s.abortQueued.resetLow = s.resetLow :=
  by unfold State.abortQueued; exact foldl_keeps _ (fun s => s.resetLow) (fun s x => by simp) _ s
@[simp] theorem abortQueued_freeIndex : s.abortQueued.freeIndex = s.freeIndex :=
  by unfold State.abortQueued; exact foldl_keeps _ (fun s => s.freeIndex) (fun s x => by simp) _ s
@[simp] theorem abortQueued_pending : s.abortQueued.pending = s.pending :=
  by unfold State.abortQueued; exact foldl_keeps _ (fun s => s.pending) (fun s x => by simp) _ s
@[simp] theorem abortQueued_exq_queue : s.abortQueued.exq.queue = s.exq.queue :=
  by unfold State.abortQueued; exact foldl_keeps _ (fun s => s.exq.queue) (fun s x => by simp) _ s
@[simp] theorem abortQueued_exq_mask : s.abortQueued.exq.mask = s.exq.mask :=
  by unfold State.abortQueued; exact foldl_keeps _ (fun s => s.exq.mask) (fun s x => by simp) _ s
@[simp] theorem abortQueued_tp_closing : s.abortQueued.tp.closing = s.tp.closing :=
  by unfold State.abortQueued; exact foldl_keeps _ (fun s => s.tp.closing) (fun s x => by simp) _ s
@[simp] theorem abortQueued_ce_commit : s.abortQueued.ce.commit = s.ce.commit :=
  by unfold State.abortQueued; exact foldl_keeps _ (fun s => s.ce.commit) (fun s x => by simp) _ s
@[simp] theorem abortQueued_ce_nextTag : s.abortQueued.ce.nextTag = s.ce.nextTag :=
  by unfold State.abortQueued; exact foldl_keeps _ (fun s => s.ce.nextTag) (fun s x => by simp) _ s
@[simp] theorem abortQueued_ce_clearOwed : s.abortQueued.ce.clearOwed = s.ce.clearOwed :=
  by unfold State.abortQueued; exact foldl_keeps _ (fun s => s.ce.clearOwed) (fun s x => by simp) _ s

/-! ### flushWork -/

@[simp] theorem flushWork_rs : s.flushWork.rs = s.rs :=
  by simp [State.flushWork]
@[simp] theorem flushWork_dbc : s.flushWork.dbc = s.dbc :=
  by simp [State.flushWork]
@[simp] theorem flushWork_mode : s.flushWork.mode = s.mode :=
  by simp [State.flushWork]
@[simp] theorem flushWork_params : s.flushWork.params = s.params :=
  by simp [State.flushWork]
@[simp] theorem flushWork_resetLow : s.flushWork.resetLow = s.resetLow :=
  by simp [State.flushWork]
@[simp] theorem flushWork_freeIndex : s.flushWork.freeIndex = s.freeIndex :=
  by simp [State.flushWork]
@[simp] theorem flushWork_pending : s.flushWork.pending = s.pending :=
  by simp [State.flushWork]
@[simp] theorem flushWork_exq_queue : s.flushWork.exq.queue = s.exq.queue :=
  by simp [State.flushWork]
@[simp] theorem flushWork_exq_mask : s.flushWork.exq.mask = s.exq.mask :=
  by simp [State.flushWork]
@[simp] theorem flushWork_tp_closing : s.flushWork.tp.closing = s.tp.closing :=
  by simp [State.flushWork]
@[simp] theorem flushWork_pou_inHand : s.flushWork.pou.inHand = s.pou.inHand :=
  by simp [State.flushWork]
@[simp] theorem flushWork_pou_summary : s.flushWork.pou.summary = s.pou.summary :=
  by simp [State.flushWork]
@[simp] theorem flushWork_pou_lastRefusal : s.flushWork.pou.lastRefusal = s.pou.lastRefusal :=
  by simp [State.flushWork]
@[simp] theorem flushWork_ce_nextTag : s.flushWork.ce.nextTag = s.ce.nextTag :=
  by simp [State.flushWork]
@[simp] theorem flushWork_ce_clearOwed : s.flushWork.ce.clearOwed = s.ce.clearOwed :=
  by simp [State.flushWork]

/-! ### flushMode -/

@[simp] theorem flushMode_nodes : s.flushMode.nodes = s.nodes :=
  by unfold State.flushMode; split <;> simp
@[simp] theorem flushMode_rs : s.flushMode.rs = s.rs :=
  by unfold State.flushMode; split <;> simp
@[simp] theorem flushMode_claims : s.flushMode.claims = s.claims :=
  by unfold State.flushMode; split <;> simp
@[simp] theorem flushMode_dbc : s.flushMode.dbc = s.dbc :=
  by unfold State.flushMode; split <;> simp
@[simp] theorem flushMode_params : s.flushMode.params = s.params :=
  by unfold State.flushMode; split <;> simp
@[simp] theorem flushMode_resetLow : s.flushMode.resetLow = s.resetLow :=
  by unfold State.flushMode; split <;> simp
@[simp] theorem flushMode_freeIndex : s.flushMode.freeIndex = s.freeIndex :=
  by unfold State.flushMode; split <;> simp
@[simp] theorem flushMode_pending : s.flushMode.pending = s.pending :=
  by unfold State.flushMode; split <;> simp
@[simp] theorem flushMode_exq_queue : s.flushMode.exq.queue = s.exq.queue :=
  by unfold State.flushMode; split <;> simp
@[simp] theorem flushMode_exq_mask : s.flushMode.exq.mask = s.exq.mask :=
  by unfold State.flushMode; split <;> simp
@[simp] theorem flushMode_tp_closing : s.flushMode.tp.closing = s.tp.closing :=
  by unfold State.flushMode; split <;> simp
@[simp] theorem flushMode_pou_inHand : s.flushMode.pou.inHand = s.pou.inHand :=
  by unfold State.flushMode; split <;> simp
@[simp] theorem flushMode_pou_summary : s.flushMode.pou.summary = s.pou.summary :=
  by unfold State.flushMode; split <;> simp
@[simp] theorem flushMode_pou_lastRefusal : s.flushMode.pou.lastRefusal = s.pou.lastRefusal :=
  by unfold State.flushMode; split <;> simp
@[simp] theorem flushMode_ce_commit : s.flushMode.ce.commit = s.ce.commit :=
  by unfold State.flushMode; split <;> simp
@[simp] theorem flushMode_ce_nextTag : s.flushMode.ce.nextTag = s.ce.nextTag :=
  by unfold State.flushMode; split <;> simp
@[simp] theorem flushMode_ce_clearOwed : s.flushMode.ce.clearOwed = s.ce.clearOwed :=
  by unfold State.flushMode; split <;> simp

/-! ### unqueueStage -/

@[simp] theorem unqueueStage_nodes (o : Originator) : (s.unqueueStage o).nodes = s.nodes :=
  by simp [State.unqueueStage]
@[simp] theorem unqueueStage_pou (o : Originator) : (s.unqueueStage o).pou = s.pou :=
  by simp [State.unqueueStage]
@[simp] theorem unqueueStage_rs (o : Originator) : (s.unqueueStage o).rs = s.rs :=
  by simp [State.unqueueStage]
@[simp] theorem unqueueStage_claims (o : Originator) : (s.unqueueStage o).claims = s.claims :=
  by simp [State.unqueueStage]
@[simp] theorem unqueueStage_stages (o : Originator) : (s.unqueueStage o).stages = s.stages :=
  by simp [State.unqueueStage]
@[simp] theorem unqueueStage_dbc (o : Originator) : (s.unqueueStage o).dbc = s.dbc :=
  by simp [State.unqueueStage]
@[simp] theorem unqueueStage_mode (o : Originator) : (s.unqueueStage o).mode = s.mode :=
  by simp [State.unqueueStage]
@[simp] theorem unqueueStage_params (o : Originator) : (s.unqueueStage o).params = s.params :=
  by simp [State.unqueueStage]
@[simp] theorem unqueueStage_resetLow (o : Originator) : (s.unqueueStage o).resetLow = s.resetLow :=
  by simp [State.unqueueStage]
@[simp] theorem unqueueStage_freeIndex (o : Originator) : (s.unqueueStage o).freeIndex = s.freeIndex :=
  by simp [State.unqueueStage]
@[simp] theorem unqueueStage_pending (o : Originator) : (s.unqueueStage o).pending = s.pending :=
  by simp [State.unqueueStage]
@[simp] theorem unqueueStage_exq_queue (o : Originator) : (s.unqueueStage o).exq.queue = s.exq.queue :=
  by simp [State.unqueueStage]
@[simp] theorem unqueueStage_exq_mask (o : Originator) : (s.unqueueStage o).exq.mask = s.exq.mask :=
  by simp [State.unqueueStage]
@[simp] theorem unqueueStage_tp_closing (o : Originator) : (s.unqueueStage o).tp.closing = s.tp.closing :=
  by simp [State.unqueueStage]

end Sys2Proof.Machine
end

