-- ==== Sys2Proof/Laws/Ends.lean ====
section
/-! SUPPORT. What the end of an event can do: the end of a drain, the NOTICE, a run of decisions; the effect of a
command as a function; and what any of these keeps, said once for any property of a state. -/

namespace Sys2Proof.Machine

/-! ## The cases -/

/-- The drain ends or nothing changes. -/
theorem endDrain_cases (s : State) :
    (s.drained = false ∧ s.endDrain = s) ∨
      (s.drained = true ∧ s.endDrain = { s with mode := .halted }.raise .halted) := by
  unfold State.endDrain; by_cases h : s.drained = true <;> simp_all

/-- One NOTICE joins the transmit queue or nothing changes. -/
theorem closeEvent_cases (b a : State) :
    closeEvent b a = a ∨
      (a.tp.closing = false ∧ a.tp.queue.length < 32 ∧ closeEvent b a =
        a.enqueue (.notice a.params.noticeOriginator a.exq.flags a.exq.queue.length)) := by
  unfold closeEvent; split_ifs with h <;> simp_all

/-- A response is discarded, joins the transmit queue, or is lost and counted. -/
theorem respond_cases (r : Response) (s : State) :
    (s.tp.closing = true ∧ s.respond r = s) ∨
      (s.tp.closing = false ∧ s.tp.queue.length < 32 ∧ s.respond r = s.enqueue (.response r)) ∨
      (s.tp.closing = false ∧ 32 ≤ s.tp.queue.length ∧ s.respond r = s.count .responsesLost) := by
  unfold State.respond; split_ifs <;> simp_all

/-- No drain ends while a transaction is in flight. -/
theorem endDrain_of_busy {s : State} (h : s.dbc.txn.isSome = true) : s.endDrain = s := by
  unfold State.endDrain State.drained State.busFree
  cases hh : s.dbc.txn <;> simp_all

/-- R149, flag by flag. -/
theorem rings_iff (b a : State) : rings b a = true ↔
    ∃ i : Fin 5, (a.exq.flags.getLsbD i.val && a.exq.mask.getLsbD i.val) = true ∧
      (b.exq.flags.getLsbD i.val && b.exq.mask.getLsbD i.val) = false := by
  unfold rings State.audible
  generalize a.exq.flags = x
  generalize a.exq.mask = y
  generalize b.exq.flags = z
  generalize b.exq.mask = w
  rw [bne_iff_ne, ne_eq, BitVec.eq_of_getLsbD_eq_iff]
  simp only [BitVec.getLsbD_and, BitVec.getLsbD_not]
  constructor
  · intro h
    push Not at h
    obtain ⟨i, hi, h⟩ := h
    refine ⟨⟨i, hi⟩, ?_⟩
    cases hx : x.getLsbD i <;> cases hy : y.getLsbD i <;> cases hz : z.getLsbD i <;>
      cases hw : w.getLsbD i <;> simp_all
  · rintro ⟨i, h1, h2⟩ h
    have := h i.val i.isLt
    have hi := i.isLt
    cases hx : x.getLsbD i <;> cases hy : y.getLsbD i <;> cases hz : z.getLsbD i <;>
      cases hw : w.getLsbD i <;> simp_all

/-! ## Who waits, after the end of an event -/

@[simp] theorem closeEvent_fwdWaits (b a : State) : (closeEvent b a).fwdWaits = a.fwdWaits := by
  rcases closeEvent_cases b a with h | ⟨_, _, h⟩ <;> rw [h] <;> rfl
@[simp] theorem closeEvent_cmtWaits (b a : State) : (closeEvent b a).cmtWaits = a.cmtWaits := by
  rcases closeEvent_cases b a with h | ⟨_, _, h⟩ <;> rw [h] <;> rfl
@[simp] theorem closeEvent_candidate (b a : State) : (closeEvent b a).candidate = a.candidate := by
  rcases closeEvent_cases b a with h | ⟨_, _, h⟩ <;> rw [h] <;> rfl
@[simp] theorem closeEvent_cmtWork (b a : State) : (closeEvent b a).cmtWork = a.cmtWork := by
  rcases closeEvent_cases b a with h | ⟨_, _, h⟩ <;> rw [h] <;> rfl
@[simp] theorem closeEvent_beginsToWait (c b a : State) :
    beginsToWait c (closeEvent b a) = beginsToWait c a := by
  rcases closeEvent_cases b a with h | ⟨_, _, h⟩ <;> rw [h] <;> rfl
@[simp] theorem endDrain_beginsToWait (c a : State) : beginsToWait c a.endDrain = beginsToWait c a := by
  rcases endDrain_cases a with h | h <;> rw [h.2] <;> rfl
@[simp] theorem endDrain_waits (a : State) :
    (a.endDrain.fwdWaits || a.endDrain.cmtWaits || a.endDrain.rnwWaits) =
      (a.fwdWaits || a.cmtWaits || a.rnwWaits) := by
  rcases endDrain_cases a with h | h <;> rw [h.2] <;> rfl
@[simp] theorem closeEvent_waits (b a : State) :
    ((closeEvent b a).fwdWaits || (closeEvent b a).cmtWaits || (closeEvent b a).rnwWaits) =
      (a.fwdWaits || a.cmtWaits || a.rnwWaits) := by
  rcases closeEvent_cases b a with h | ⟨_, _, h⟩ <;> rw [h] <;> rfl
@[simp] theorem bookGrant_candidate (r : Requester) (st : GrantStep) (s : State) :
    (s.bookGrant r st).candidate = s.candidate := rfl
@[simp] theorem bookGrant_cmtWork (r : Requester) (st : GrantStep) (s : State) :
    (s.bookGrant r st).cmtWork = s.cmtWork := rfl

/-- Nobody begins to wait at an event that leaves alone what the requesters are computed from. -/
theorem beginsToWait_of_same {a b : State} (h1 : a.pou = b.pou) (h2 : a.ce = b.ce) (h3 : a.dbc = b.dbc)
    (h4 : a.stages = b.stages) (h5 : a.nodes = b.nodes) (h6 : a.rs = b.rs) (h7 : a.params = b.params) :
    beginsToWait b a = false := by
  have hc : a.candidate = b.candidate := by
    unfold State.candidate
    rw [h6]
    congr
    funext best n
    congr 1
    unfold State.offerOf State.node
    rw [h5, h7]
  have hw : a.cmtWork = b.cmtWork := by
    unfold State.cmtWork State.ceBusy State.commitTag State.stage
    rw [h3, h2, h4]
  simp [beginsToWait, State.fwdWaits, State.cmtWaits, State.rnwWaits, h1, hw, hc]

/-! ## What any property keeps -/

section Keeps

variable {P : State → Prop}

/-- A fold whose every step keeps a property keeps it. -/
theorem foldl_induction {α : Type} {f : State → α → State} (h : ∀ s a, P s → P (f s a)) (l : List α) :
    ∀ s, P s → P (l.foldl f s) := by
  induction l with
  | nil => exact fun _ hs => hs
  | cons a l ih => exact fun s hs => ih _ (h s a hs)

/-- What a frame that joins keeps, the NOTICE at the end of an event keeps. -/
theorem closeEvent_keeps
    (hq : ∀ (f : TrunkFrame) (s : State), P s → s.tp.closing = false → s.tp.queue.length < 32 →
      P (s.enqueue f)) (b : State) {a : State} (ha : P a) : P (closeEvent b a) := by
  rcases closeEvent_cases b a with h | ⟨h1, h2, h⟩ <;> rw [h]
  · exact ha
  · exact hq _ _ ha h1 h2

/-- What a frame that joins and a count keep, a response keeps. -/
theorem respond_keeps
    (hq : ∀ (f : TrunkFrame) (s : State), P s → s.tp.closing = false → s.tp.queue.length < 32 →
      P (s.enqueue f))
    (hc : ∀ (c : Counter) (s : State), P s → P (s.count c)) (r : Response) {s : State} (hs : P s) :
    P (s.respond r) := by
  rcases respond_cases r s with ⟨_, h⟩ | ⟨h1, h2, h⟩ | ⟨_, _, h⟩ <;> rw [h]
  · exact hs
  · exact hq _ _ hs h1 h2
  · exact hc _ _ hs

/-- What every decision keeps, a run of decisions keeps. -/
theorem decisions_keeps
    (hd : ∀ (s : State) (r : Requester) (st : GrantStep), P s → s.winner = some (r, st) →
      P (s.decideGrant r st).1) (k : Nat) : ∀ s : State, P s → P (s.decisions k) := by
  induction k with
  | zero => exact fun _ hs => hs
  | succ k ih =>
    intro s hs
    unfold State.decisions
    split
    · exact hs
    · next r st hw =>
      dsimp only
      split
      · exact hd _ _ _ hs hw
      · exact ih _ (hd _ _ _ hs hw)

/-- What every decision keeps, a decision event keeps. -/
theorem arbitrate_keeps
    (hd : ∀ (s : State) (r : Requester) (st : GrantStep), P s → s.winner = some (r, st) →
      P (s.decideGrant r st).1) {s : State} (hs : P s) : P s.arbitrate :=
  decisions_keeps hd _ s hs

/-- What the NOTICE and every decision keep, the end of an event keeps, once its drain has ended. -/
theorem finish_keeps
    (hq : ∀ (f : TrunkFrame) (s : State), P s → s.tp.closing = false → s.tp.queue.length < 32 →
      P (s.enqueue f))
    (hd : ∀ (s : State) (r : Requester) (st : GrantStep), P s → s.winner = some (r, st) →
      P (s.decideGrant r st).1) (b : State) {a : State} (ha : P a.endDrain) : P (finish b a) := by
  unfold finish
  dsimp only
  split
  · exact arbitrate_keeps hd (closeEvent_keeps hq b ha)
  · exact closeEvent_keeps hq b ha

end Keeps

/-! ## The effect of a command -/

/-- The state a command leaves. -/
def effect (c : Instr) (s : State) : State :=
  match c with
  | .powerOn => s.fullReset
  | .resetAsserted => s.assertReset
  | .resetReleased => s.releaseReset
  | .fullResetTaken => if s.resetLow then s else s.takeFullReset
  | .trunkCrcFailure f c => receiveFrame f c s
  | .unknownKindFrame k rq => takeFrame k rq s
  | .closingFrameDiscarded f => receiveFrame f false s
  | .write rq => writeRequest rq s
  | .modify rq => modifyRequest rq s
  | .read rq => readRequest rq s
  | .release rq => releaseRequest rq s
  | .test rq => testRequest rq s
  | .claim rq => claimRequest rq s
  | .unclaim rq => unclaimRequest rq s
  | .stage rq => stageRequest rq s
  | .commit rq => commitRequest rq s
  | .discard rq => discardRequest rq s
  | .configureNode rq => configureNodeRequest rq s
  | .removeNode rq => removeNodeRequest rq s
  | .parkNode rq => parkNodeRequest rq s
  | .unparkNode rq => unparkNodeRequest rq s
  | .nodeStatus rq => nodeStatusRequest rq s
  | .setParameters rq => setParametersRequest rq s
  | .readParameters rq => readParametersRequest rq s
  | .setMode rq => setModeRequest rq s
  | .flush rq => flushRequest rq s
  | .fullReset rq => fullResetRequest rq s
  | .readStatus rq => readStatusRequest rq s
  | .readExceptions rq => readExceptionsRequest rq s
  | .readNotices rq => readNoticesRequest rq s
  | .setNoticeMask rq => setNoticeMaskRequest rq s
  | .readCounters rq => readCountersRequest rq s
  | .trunkFrameTransmitted => if s.resetLow then s else s.frameTransmitted
  | .arbiterDecision => unlessReset State.arbitrate s
  | .idleWindowElapsed => unlessReset State.idleWindowReached s
  | .unicastTransmissionEnd => unlessReset State.unicastEnd s
  | .takeTransmissionEnd => unlessReset State.takeTransmitted s
  | .abandonTransmissionEnd => unlessReset State.abandonTransmitted s
  | .clearTransmissionEnd => unlessReset State.clearTransmitted s
  | .dropReplyTaken f => unlessReset (State.dropReceive f) s
  | .freeFrameReceived f => unlessReset (State.dropReceive f) s
  | .replyWindowExpiry => unlessReset State.windowExpire s
  | .phaseEvent => unlessReset State.phaseEvent s
  | .intervalExpiry => unlessReset State.intervalExpiryEvent s
  | .commitTaken => unlessReset State.commitTakenEvent s
  | .drainEnd => unlessReset State.drainEndEvent s

/-- A command answers the state it leaves. -/
theorem exec_eq_effect (c : Instr) (s : State) : exec c s = .next (effect c s) := by
  cases c <;> rfl

/-- What every command and the passing of 10 µs keep, every step keeps. -/
theorem kept_of_effect {P : State → Prop}
    (hp : ∀ (s : State) (l : List Instr), P s → P { s with pending := l })
    (he : ∀ (c : Instr) (s : State), P s → P (effect c s)) (ht : ∀ s : State, P s → P s.tick) :
    Kept P := by
  intro s t hs h
  unfold step at h
  split at h
  · rw [exec_eq_effect] at h
    cases h
    exact he _ _ (hp _ _ hs)
  · cases h
    exact ht _ hs

/-- An event while RESET is not held low is taken. -/
theorem unlessReset_of_not_low (f : State → State) {s : State} (h : s.resetLow = false) :
    unlessReset f s = f s := by simp [unlessReset, h]

/-- An event while RESET is held low is not taken. -/
theorem unlessReset_of_low (f : State → State) {s : State} (h : s.resetLow = true) :
    unlessReset f s = s := by simp [unlessReset, h]

end Sys2Proof.Machine
end

