-- ==== Sys2Proof/Laws/Blocks.lean ====
section
/-! SUPPORT. What the shared operations of the blocks do to the one thing each is for: points, claims, stages, the
commit engine, the queues that are emptied, and accrual. -/

namespace Sys2Proof.Machine

variable (s : State)

/-! ## Points -/

/-- A point reads alike in states with the same Node Table. -/
theorem point_of_same_nodes {s t : State} (h : s.nodes = t.nodes) (n : NodeIdx) (p : PointIdx) :
    s.point n p = t.point n p := by simp [State.point, State.node, h]

/-- R7: a pending value set or removed at one point. -/
theorem setPending_point (n m : NodeIdx) (p q : PointIdx) (v : Option Word) :
    (s.setPending n p v).point m q =
      if n = m ∧ p = q then { s.point n p with pending := v } else s.point m q :=
  statePoint_setPoint s n m p q _

/-- R6: the shadow after a value-setting event. -/
theorem setActive_point (n m : NodeIdx) (p q : PointIdx) (v : Word) (c : BreakCause) :
    (s.setActive n p v c).point m q =
      if n = m ∧ p = q then { s.point n p with active := some v } else s.point m q := by
  have h : (s.setActive n p v c).nodes =
      (s.setPoint n p { s.point n p with active := some v }).nodes := by simp [State.setActive]
  rw [point_of_same_nodes h]
  exact statePoint_setPoint s n m p q _

/-- A claim record is for a point exactly when it names its node and point. -/
theorem claim_on_iff (c : Claim) (n : NodeIdx) (p : PointIdx) :
    c.on n p = true ↔ c.node = n ∧ c.point = p := by simp [Claim.on]

/-! ## Stages and the commit engine -/

/-- A response leaves the stages alone. -/
theorem respond_stage (r : Response) (o : Originator) : (s.respond r).stage o = s.stage o := by
  simp [State.stage]

/-- Pending values removed leave the stages alone. -/
theorem dropPending_stage (es : List StageEntry) (o : Originator) :
    (s.dropPending es).stage o = s.stage o := by simp [State.stage]

/-- R129: the node order is the first occurrences of the entries' nodes. -/
theorem nodeOrder_eq (es : List StageEntry) :
    nodeOrder es = ((es.map StageEntry.node).reverse.dedup).reverse := by
  suffices h : ∀ r : List StageEntry,
      nodeOrder r.reverse = ((r.map StageEntry.node).dedup).reverse by
    have := h es.reverse
    simpa using this
  intro r
  induction r with
  | nil => rfl
  | cons e r ih =>
    simp only [List.reverse_cons]
    rw [nodeOrder, List.foldl_append]
    change (let acc := nodeOrder r.reverse; if e.node ∈ acc then acc else acc ++ [e.node]) = _
    rw [ih]
    by_cases hm : e.node ∈ r.map StageEntry.node
    · rw [List.map_cons, List.dedup_cons_of_mem hm]
      simpa using hm
    · rw [List.map_cons, List.dedup_cons_of_notMem hm]
      simp
      intro x hx he
      exact absurd (by simpa using ⟨x, hx, he⟩) hm

/-- A legal CLOSED stage is the empty one (R119). -/
theorem stage_eq_of_closed {g : Stage} (hl : g.Legal) (h : g.state = .closed) : g = {} := by
  obtain ⟨-, -, h3, h4, h5, h6⟩ := hl
  have e := h3.mp h
  have l := h4.mp h
  cases g
  simp only at *
  subst h e l
  simp at h5 h6
  simp [h5, h6]

/-- R139: one stage reopened, the others as they were. -/
theorem reopenStage_stage (o p : Originator) :
    (s.reopenStage o).stage p =
      if p = o then { s.stage o with state := .opened, life := some s.params.stageTimeout, request := none }
      else s.stage p := by
  unfold State.reopenStage
  simp only [stage_setStage]
  by_cases h : o = p
  · subst h; simp [State.stage]
  · rw [if_neg h, if_neg (fun h' => h (Eq.symm h'))]; simp [State.stage]

/-- R139: the stages named are reopened, the others as they were. -/
theorem reopenStages_stage (l : List Originator) (hn : l.Nodup) (o : Originator) :
    ∀ s : State, (l.foldl State.reopenStage s).stage o =
      if o ∈ l then
        { s.stage o with state := .opened, life := some s.params.stageTimeout, request := none }
      else s.stage o := by
  induction l with
  | nil => simp
  | cons a l ih =>
    intro s
    simp only [List.foldl_cons, List.nodup_cons] at hn ⊢
    rw [ih hn.2, reopenStage_stage]
    by_cases h1 : o ∈ l
    · have : o ≠ a := fun h => hn.1 (h ▸ h1)
      simp [h1, this]
    · by_cases h2 : o = a
      · subst h2; simp [h1]
      · simp [h1, h2]

/-- The commit queue emptied, the rest of the Commit Engine as it was. -/
theorem reopenQueued_ce : s.reopenQueued.ce = { s.ce with queue := [] } := by
  have := foldl_keeps State.reopenStage State.ce (by intro s o; simp) s.ce.queue s
  simp [State.reopenQueued, this]

/-- R77: the forward queue emptied, the rest of the POU as it was. -/
theorem answerForward_pou (st : Status) :
    (s.answerForward st).pou = { s.pou with forward := [] } := by
  have := foldl_keeps (fun s (e : FwdEntry) => s.respond (e.reply st)) State.pou (by intro s o; simp)
    s.pou.forward s
  simp [State.answerForward, this]

/-- R140: one stage closed, the others as they were. -/
theorem abortStage_stage (o p : Originator) :
    (s.abortStage o).stage p = if o = p then {} else s.stage p := by
  unfold State.abortStage State.closeStage
  rw [stage_setStage]
  simp [State.stage]

/-- R140: the stages named are closed, the others as they were. -/
theorem abortStages_stage (l : List Originator) (p : Originator) :
    ∀ s : State, (l.foldl State.abortStage s).stage p = if p ∈ l then {} else s.stage p := by
  induction l with
  | nil => simp
  | cons a l ih =>
    intro s
    simp only [List.foldl_cons]
    rw [ih, abortStage_stage]
    by_cases h1 : p ∈ l
    · simp [h1]
    · by_cases h2 : a = p
      · simp [h2]
      · simp [h1, h2]
        intro h
        exact absurd h.symm h2

/-- R161 step 3: the commit queue emptied, the rest of the Commit Engine as it was. -/
theorem abortQueued_ce : s.abortQueued.ce = { s.ce with queue := [] } := by
  have := foldl_keeps State.abortStage State.ce (by intro s o; simp) s.ce.queue s
  simp [State.abortQueued, this]

/-- R161 step 2: the commit gone, the rest of the Commit Engine as it was. -/
theorem abortCommit_ce : s.abortCommit.ce = { s.ce with commit := none } := by
  unfold State.abortCommit
  split
  · simp
  · next h => cases hc : s.ce; simp_all

/-! ## Several responses -/

/-- Responses that find room join in their order. -/
theorem responses_join {α : Type} (f : α → Response) (l : List α) :
    ∀ s : State, s.tp.closing = false → s.tp.queue.length + l.length ≤ 32 →
      (l.foldl (fun s e => s.respond (f e)) s).tp.queue =
        s.tp.queue ++ l.map fun e => .response (f e) := by
  induction l with
  | nil => simp
  | cons a l ih =>
    intro s hc hl
    simp only [List.length_cons] at hl
    have h1 : (s.respond (f a)).tp.queue = s.tp.queue ++ [.response (f a)] := by
      have : s.tp.queue.length < 32 := by omega
      simp [State.respond, hc, this]
    simp only [List.foldl_cons]
    rw [ih _ (by simpa using hc) (by rw [h1]; simp; omega), h1]
    simp

/-- R150: a count and then `k` more wrap exactly when the `k + 1` together do. -/
theorem lost_flags (x : Word) (k : Nat) (f : BitVec 5) :
    (if 65536 ≤ (x + 1).toNat + k then (if x = 0xFFFF#16 then f ||| 4#5 else f) ||| 4#5
      else if x = 0xFFFF#16 then f ||| 4#5 else f) =
      if 65536 ≤ x.toNat + (k + 1) then f ||| 4#5 else f := by
  have hx := x.isLt
  by_cases h : x = 0xFFFF#16
  · subst h
    have : 65536 ≤ (0xFFFF#16).toNat + (k + 1) := by simp; omega
    rw [if_pos this, if_pos rfl, BitVec.or_assoc]
    split <;> rfl
  · have hn : x.toNat ≠ 65535 := fun e => h (BitVec.eq_of_toNat_eq (by simpa using e))
    have e : (x + 1).toNat = x.toNat + 1 := by
      rw [BitVec.toNat_add]
      simp
      omega
    simp only [if_neg h, e]
    congr 1
    rw [eq_iff_iff]
    omega

/-- R82, R83, R150: what any number of responses does to the whole state while the TP is not CLOSING: as many join as
find room, in their order; the others are counted. -/
theorem responses_eq (l : List Response) : ∀ s : State, s.tp.closing = false →
    l.foldl (fun s r => s.respond r) s =
      let room := 32 - s.tp.queue.length
      let queue := s.tp.queue ++ (l.map TrunkFrame.response).take room
      let lost := l.length - room
      { s with
        tp := { s.tp with
          queue := queue
          pause := s.tp.pause || decide (s.tp.queue.length < 24 ∧ 24 ≤ queue.length) }
        counters := { s.counters with
          responsesLost := s.counters.responsesLost + BitVec.ofNat 16 lost }
        exq := { s.exq with flags :=
          if 65536 ≤ s.counters.responsesLost.toNat + lost then s.exq.flags ||| 4#5 else s.exq.flags } } := by
  induction l with
  | nil =>
    intro s _
    have h1 : ¬(s.tp.queue.length < 24 ∧ 24 ≤ s.tp.queue.length) := by omega
    have h2 := s.counters.responsesLost.isLt
    have h3 : ¬65536 ≤ s.counters.responsesLost.toNat := by omega
    simp [h1, h3]
  | cons r l ih =>
    intro s hc
    rw [List.foldl_cons]
    rcases respond_cases r s with ⟨h, _⟩ | ⟨_, hl, h⟩ | ⟨_, hl, h⟩
    · simp [hc] at h
    · rw [ih _ (by simpa using hc), h]
      have e : 32 - s.tp.queue.length = (32 - (s.tp.queue.length + 1)) + 1 := by omega
      simp only [State.enqueue, List.length_append, List.length_cons, List.length_nil, List.map_cons, e,
        List.take_succ_cons, Nat.zero_add, List.append_assoc, List.singleton_append, Nat.add_sub_add_right]
      congr 2
      by_cases h1 : s.tp.queue.length = 23
      · simp [h1]
        omega
      · have h2 : (s.tp.queue.length + 1 == 24) = false := by simpa using h1
        rw [h2, Bool.or_false]
        congr 1
        rw [decide_eq_decide]
        omega
    · rw [ih _ (by simpa using hc), h]
      have e : 32 - s.tp.queue.length = 0 := by omega
      have hk : s.count .responsesLost = { s with
          counters := { s.counters with responsesLost := s.counters.responsesLost + 1 }
          exq := { s.exq with flags :=
            if s.counters.responsesLost = 0xFFFF#16 then s.exq.flags ||| 4#5 else s.exq.flags } } := by
        unfold State.count
        by_cases hw : s.counters.responsesLost = 0xFFFF#16
        · rw [if_pos (show s.counters.get .responsesLost = 0xFFFF#16 from hw), if_pos hw]
          rfl
        · rw [if_neg (show ¬s.counters.get .responsesLost = 0xFFFF#16 from hw), if_neg hw]
          rfl
      have hA : s.counters.responsesLost + 1 + BitVec.ofNat 16 l.length =
          s.counters.responsesLost + BitVec.ofNat 16 (l.length + 1) := by
        rw [BitVec.add_assoc, Nat.add_comm l.length 1, BitVec.ofNat_add]
        rfl
      have hB := lost_flags s.counters.responsesLost l.length s.exq.flags
      rw [hk]
      simp only [e, Nat.sub_zero, List.length_cons, List.take_zero, List.append_nil, hA, hB]

/-- The two states have the same transmit queue, counters and exception unit. -/
def SameOut (s t : State) : Prop := s.tp = t.tp ∧ s.counters = t.counters ∧ s.exq = t.exq

/-- A response does alike in states that have the same outputs. -/
theorem respond_sameOut (r : Response) {s t : State} (h : SameOut s t) :
    SameOut (s.respond r) (t.respond r) := by
  obtain ⟨h1, h2, h3⟩ := h
  unfold State.respond State.count
  rw [h1, h2]
  split_ifs <;> simp [SameOut, State.enqueue, State.raise, h1, h2, h3]

/-- What several responses do alike in states that have the same outputs. -/
theorem responses_sameOut (l : List Response) : ∀ {s t : State}, SameOut s t →
    SameOut (l.foldl (fun s r => s.respond r) s) (l.foldl (fun s r => s.respond r) t) := by
  induction l with
  | nil => exact fun h => h
  | cons r l ih => exact fun h => ih (respond_sameOut r h)

/-- The same outputs, through a third state. -/
theorem sameOut_trans {s t u : State} (h : SameOut s t) (h' : SameOut t u) : SameOut s u :=
  ⟨h.1.trans h'.1, h.2.1.trans h'.2.1, h.2.2.trans h'.2.2⟩

/-- The answer to the COMMIT of a stage that a FLUSH closes (R140). -/
def abortedAnswer (s : State) (o : Originator) : Response :=
  { originator := o, tag := ((s.stage o).request).getD 0, kind := ReqKind.commit.code, status := .aborted }

/-- R140: the outputs of stages closed one after another are those of their answers. -/
theorem abortStages_sameOut (l : List Originator) : ∀ s : State, l.Nodup →
    (∀ o ∈ l, (s.stage o).request.isSome = true) →
    SameOut (l.foldl State.abortStage s) ((l.map (abortedAnswer s)).foldl (fun s r => s.respond r) s) := by
  induction l with
  | nil => exact fun _ _ _ => ⟨rfl, rfl, rfl⟩
  | cons a l ih =>
    intro s hn hr
    simp only [List.nodup_cons] at hn
    have hs : ∀ o ∈ l, (s.abortStage a).stage o = s.stage o := by
      intro o ho
      rw [abortStage_stage, if_neg]
      rintro rfl
      exact hn.1 ho
    have h := ih (s.abortStage a) hn.2 fun o ho => by rw [hs o ho]; exact hr o (List.mem_cons_of_mem _ ho)
    have e : l.map (abortedAnswer (s.abortStage a)) = l.map (abortedAnswer s) :=
      List.map_congr_left fun o ho => by rw [abortedAnswer, abortedAnswer, hs o ho]
    have h1 : SameOut (s.abortStage a) (s.respond (abortedAnswer s a)) := by
      obtain ⟨t, ht⟩ := Option.isSome_iff_exists.mp (hr a List.mem_cons_self)
      unfold State.abortStage State.answerCommit abortedAnswer
      rw [ht]
      exact ⟨rfl, rfl, rfl⟩
    rw [e] at h
    exact sameOut_trans h (responses_sameOut _ h1)

/-! ## Several records -/

/-- R143, R144: of the records offered as many join as find room, in their order, under the present interval count;
the others are counted as lost. -/
theorem offers_queue (l : List ExcBody) : ∀ s : State,
    (l.foldl (fun s b => s.offer b) s).exq.queue = s.exq.queue ++
        (l.take (32 - s.exq.queue.length)).map (fun b => { body := b, stamp := s.rs.intervalCount }) ∧
      (l.foldl (fun s b => s.offer b) s).counters.exceptionsLost =
        s.counters.exceptionsLost + BitVec.ofNat 16 (l.length - (32 - s.exq.queue.length)) := by
  induction l with
  | nil => intro s; simp
  | cons b l ih =>
    intro s
    rw [List.foldl_cons, (ih _).1, (ih _).2, offer_rs]
    by_cases h : s.exq.queue.length < 32
    · have hq : (s.offer b).exq.queue =
          s.exq.queue ++ [{ body := b, stamp := s.rs.intervalCount }] := by
        unfold State.offer
        rw [if_pos h]
        dsimp only
        split <;> rfl
      have hc : (s.offer b).counters = s.counters := by
        unfold State.offer
        rw [if_pos h]
        dsimp only
        split <;> rfl
      have e : 32 - s.exq.queue.length = (32 - (s.exq.queue.length + 1)) + 1 := by omega
      rw [hq, hc, e]
      simp
    · have hq : (s.offer b).exq.queue = s.exq.queue := by
        unfold State.offer
        rw [if_neg h]
        simp
      have hc : (s.offer b).counters.exceptionsLost = s.counters.exceptionsLost + 1 := by
        unfold State.offer
        rw [if_neg h]
        unfold State.count
        dsimp only
        split <;> rfl
      have e : 32 - s.exq.queue.length = 0 := by omega
      rw [hq, hc, e]
      refine ⟨by simp, ?_⟩
      rw [List.length_cons, Nat.sub_zero, Nat.sub_zero, BitVec.add_assoc, Nat.add_comm l.length 1,
        BitVec.ofNat_add]
      rfl

/-! ## Accrual -/

/-- R44, R45: the nodes of the phase accrue, each once, and the others keep their entries. -/
theorem accrueAll_node (p : Fin 4) (n : NodeIdx) :
    (s.accrueAll p).node n =
      if accruesAt s.params.stagger p n = true then (accrue n (s.node n)).1 else s.node n := by
  have key : ∀ (l : List NodeIdx) (u : State), l.Nodup →
      (l.foldl (fun s n => s.setNode n (accrue n (s.node n)).1) u).node n =
        if n ∈ l then (accrue n (u.node n)).1 else u.node n := by
    intro l
    induction l with
    | nil => intro u _; simp
    | cons a l ih =>
      intro u hn
      simp only [List.nodup_cons] at hn
      simp only [List.foldl_cons]
      rw [ih _ hn.2, node_setNode]
      by_cases h1 : a = n
      · subst h1; simp [hn.1]
      · simp [h1]
        by_cases h2 : n ∈ l <;> simp [h2]
        intro h
        exact absurd h.symm h1
  unfold State.accrueAll State.accrualNodes
  rw [key _ _ ((List.nodup_finRange 48).filter _)]
  simp

/-! ## Grants -/

/-- R79: a grant of an entry starts a transaction with the entry in hand, or is unused and leaves the forward queue
and the Commit Engine as they were. -/
def GrantedOrUnused (s : State) (g : State × Bool) : Prop :=
  (g.2 = true ∧ g.1.dbc.txn.isSome = true) ∨
    (g.2 = false ∧ g.1.pou.forward = s.pou.forward ∧ g.1.ce = s.ce)

/-- The CONFLICT check leaves the forward queue and the Commit Engine alone. -/
theorem conflictCheck_leaves (e : FwdEntry) (pts : List PointIdx) :
    (conflictCheck e pts s).state.pou.forward = s.pou.forward ∧
      (conflictCheck e pts s).state.ce = s.ce := by
  unfold conflictCheck
  split
  · simp
  · split <;> simp [refusePotent, passImpotent]

/-- The BROKEN check leaves the forward queue and the Commit Engine alone. -/
theorem brokenCheck_leaves (e : FwdEntry) (p : PointIdx) (c : Claim) :
    (brokenCheck e p c s).state.pou.forward = s.pou.forward ∧ (brokenCheck e p c s).state.ce = s.ce := by
  unfold brokenCheck
  split
  · simp
  · split <;> simp [refusePotent, passImpotent]

/-- A refused grant is unused. -/
theorem refuseGrant_unused (e : FwdEntry) (st : Status) {s t : State}
    (h1 : s.pou.forward = t.pou.forward) (h2 : s.ce = t.ce) : GrantedOrUnused t (refuseGrant e st s) :=
  .inr ⟨rfl, by simpa [refuseGrant] using h1, by simpa [refuseGrant] using h2⟩

/-- A started transaction is a used grant. -/
theorem startInHand_used (e : FwdEntry) (m : Option (Word × Bool)) (f : UniFrame) (s t : State) :
    GrantedOrUnused t (startInHand e m f s) := .inl ⟨rfl, rfl⟩

/-- R78, R79: the grant of any entry. -/
theorem grantEntry_granted (e : FwdEntry) : GrantedOrUnused s (grantEntry e s) := by
  unfold grantEntry
  split
  · split
    · exact startInHand_used _ _ _ _ _
    · unfold afterConflict
      split
      · exact refuseGrant_unused _ _ (conflictCheck_leaves _ _ _).1 (conflictCheck_leaves _ _ _).2
      · exact startInHand_used _ _ _ _ _
    · split
      · exact refuseGrant_unused _ _ rfl rfl
      · unfold afterConflict
        dsimp only
        split
        · exact refuseGrant_unused _ _ (conflictCheck_leaves _ _ _).1 (conflictCheck_leaves _ _ _).2
        · exact startInHand_used _ _ _ _ _
    · split
      · exact refuseGrant_unused _ _ rfl rfl
      · dsimp only
        split
        · exact refuseGrant_unused _ _ (brokenCheck_leaves _ _ _ _).1 (brokenCheck_leaves _ _ _ _).2
        · unfold afterReleaseConflict
          split
          · exact refuseGrant_unused _ _
              ((conflictCheck_leaves _ _ _).1.trans (brokenCheck_leaves _ _ _ _).1)
              ((conflictCheck_leaves _ _ _).2.trans (brokenCheck_leaves _ _ _ _).2)
          · exact startInHand_used _ _ _ _ _
  · exact refuseGrant_unused _ _ rfl rfl

end Sys2Proof.Machine
end

