-- ==== Sys2Proof/Laws/Bytes.lean ====
section
/-! SUPPORT. Bytes and readers: a field reads back as it was laid out, list by list. -/

namespace Sys2Proof

/-- A number below 256 is its byte's value. -/
theorem byteOf_toNat {n : Nat} (h : n < 256) : (byteOf n).toNat = n := by
  simp only [byteOf, BitVec.toNat_ofNat]; omega

/-- R176: the two bytes of a field laid out again. -/
theorem wordBytes_wordOf (hi lo : Byte) : wordBytes (wordOf hi lo) = [hi, lo] := by
  have h1 := hi.isLt
  have h2 := lo.isLt
  have e : (wordOf hi lo).toNat = hi.toNat * 256 + lo.toNat := by
    simp only [wordOf, BitVec.toNat_ofNat]; omega
  simp only [wordBytes, e, byteOf]
  congr 1
  · apply BitVec.eq_of_toNat_eq; simp only [BitVec.toNat_ofNat]; omega
  · congr 1; apply BitVec.eq_of_toNat_eq; simp only [BitVec.toNat_ofNat]; omega

/-- R176: a word read from its two bytes. -/
theorem wordOf_wordBytes (w : Word) : wordOf (byteOf (w.toNat / 256)) (byteOf w.toNat) = w := by
  have := w.isLt
  apply BitVec.eq_of_toNat_eq
  simp only [wordOf, byteOf, BitVec.toNat_ofNat]; omega

/-- A frame with its check passes it. -/
theorem checkGood_withCheck {bs : List Byte} (h : 4 ≤ bs.length) : checkGood (withCheck bs) = true := by
  unfold checkGood withCheck
  have : (wordBytes (crc16 bs)).length = 2 := rfl
  simp [this]; omega

/-- A point index or bit index reads back. -/
theorem readIdx_byteOf (p : Fin 16) : readIdx (byteOf p.val) = some p := by
  have h := p.isLt
  have e := byteOf_toNat (n := p.val) (by omega)
  unfold readIdx
  rw [dif_pos (by omega)]
  congr 1
  exact Fin.ext e

/-- A node address reads back. -/
theorem ofAddr_byteOf (n : NodeIdx) : NodeIdx.ofAddr? (byteOf n.addr).toNat = some n := by
  have h := n.isLt
  have e := byteOf_toNat (n := n.addr) (by unfold NodeIdx.addr; omega)
  rw [e]
  unfold NodeIdx.ofAddr? NodeIdx.addr
  rw [dif_pos (by omega)]
  congr 1

/-- Items read back. -/
theorem readItems_itemBytes (l : List Item) : readItems l.length (itemBytes l) = some l := by
  induction l with
  | nil => rfl
  | cons a l ih =>
    show (match readIdx (byteOf a.point.val), readItems l.length (itemBytes l) with
      | some pt, some its =>
        some (Item.mk pt (wordOf (byteOf (a.value.toNat / 256)) (byteOf a.value.toNat)) :: its)
      | _, _ => none) = _
    rw [readIdx_byteOf, ih, wordOf_wordBytes]

/-- Points read back. -/
theorem readPoints_pointBytes (l : List PointIdx) : readPoints l.length (pointBytes l) = some l := by
  induction l with
  | nil => rfl
  | cons a l ih =>
    show (match readIdx (byteOf a.val), readPoints l.length (pointBytes l) with
      | some pt, some pts => some (pt :: pts)
      | _, _ => none) = _
    rw [readIdx_byteOf, ih]

/-- A list body reads back when its list does. -/
theorem readCounted_of_read {α κ : Type} [DecidableEq κ] {rd : Nat → List Byte → Option (List α)}
    {key : α → κ} {l : List α} {b : List Byte} (h1 : 1 ≤ l.length) (h2 : l.length ≤ 16)
    (hn : (l.map key).Nodup) (h : rd l.length b = some l) :
    readCounted rd key (byteOf l.length :: b) = some l := by
  have e := byteOf_toNat (n := l.length) (by omega)
  unfold readCounted
  simp only [e, h, h1, h2, hn]
  simp

/-- A list body that reads names no key twice. -/
theorem nodup_of_readCounted {α κ : Type} [DecidableEq κ] {rd : Nat → List Byte → Option (List α)}
    {key : α → κ} {b : List Byte} {l : List α} (h : readCounted rd key b = some l) :
    (l.map key).Nodup := by
  unfold readCounted at h
  split at h
  · split at h
    · split at h
      · split at h
        · next h1 => cases h; exact h1
        · cases h
      · cases h
    · cases h
  · cases h

/-! ## What the readers take

Each reader answers a value exactly on that value's own bytes (R177, Table 11-2). -/

/-- A byte is the byte of its value. -/
theorem byteOf_of_toNat (b : Byte) : byteOf b.toNat = b := by
  simp only [byteOf, BitVec.ofNat_toNat, BitVec.setWidth_eq]

/-- A byte and the number it is of. -/
theorem byte_eq_iff {b : Byte} {k : Nat} (h : k < 256) : b = byteOf k ↔ b.toNat = k :=
  ⟨fun e => by rw [e, byteOf_toNat h], fun e => by rw [← e, byteOf_of_toNat]⟩

/-- A point or bit index is read from its own byte. -/
theorem readIdx_iff (b : Byte) (p : Fin 16) : readIdx b = some p ↔ b = byteOf p.val := by
  constructor
  · intro h
    unfold readIdx at h
    split at h
    · cases h; exact (byteOf_of_toNat b).symm
    · cases h
  · rintro rfl; exact readIdx_byteOf p

/-- A node is read from its own address byte. -/
theorem ofAddr_iff (b : Byte) (n : NodeIdx) : NodeIdx.ofAddr? b.toNat = some n ↔ b = byteOf n.addr := by
  constructor
  · intro h
    unfold NodeIdx.ofAddr? at h
    split at h
    · next hb =>
      cases h
      rw [byte_eq_iff (by simp only [NodeIdx.addr]; omega)]
      simp only [NodeIdx.addr]; omega
    · cases h
  · rintro rfl; exact ofAddr_byteOf n

/-- An operation is read from its own code. -/
theorem bitOpOf_iff (b : Byte) (o : BitOp) : BitOp.ofCode? b = some o ↔ b = o.code := by
  constructor
  · intro h
    unfold BitOp.ofCode? at h
    have e : o.code = b := by simpa using List.find?_some h
    exact e.symm
  · rintro rfl; cases o <;> rfl

/-- A parameter is read from its own identifier. -/
theorem paramOf_iff (b : Byte) (i : ParamId) : ParamId.ofCode? b = some i ↔ b = i.code := by
  constructor
  · intro h
    unfold ParamId.ofCode? at h
    have e : i.code = b := by simpa using List.find?_some h
    exact e.symm
  · rintro rfl; cases i <;> rfl

/-- Items are read from their own bytes. -/
theorem readItems_iff (n : Nat) (l : List Item) : ∀ b : List Byte,
    readItems n b = some l ↔ l.length = n ∧ b = itemBytes l := by
  induction n generalizing l with
  | zero => intro b; cases b <;> cases l <;> simp [readItems, itemBytes]
  | succ n ih =>
    intro b
    constructor
    · intro h
      match b, h with
      | p :: hi :: lo :: rest, h =>
        simp only [readItems] at h
        split at h
        · next pt its hp hr =>
          cases h
          obtain ⟨h1, h2⟩ := (ih _ _).mp hr
          refine ⟨by simp [h1], ?_⟩
          rw [(readIdx_iff _ _).mp hp, h2]
          simp [itemBytes, wordBytes_wordOf]
        · cases h
    · rintro ⟨h1, rfl⟩
      rw [← h1]; exact readItems_itemBytes l

/-- Points are read from their own bytes. -/
theorem readPoints_iff (n : Nat) (l : List PointIdx) : ∀ b : List Byte,
    readPoints n b = some l ↔ l.length = n ∧ b = pointBytes l := by
  induction n generalizing l with
  | zero => intro b; cases b <;> cases l <;> simp [readPoints, pointBytes]
  | succ n ih =>
    intro b
    constructor
    · intro h
      match b, h with
      | p :: rest, h =>
        simp only [readPoints] at h
        split at h
        · next pt pts hp hr =>
          cases h
          obtain ⟨h1, h2⟩ := (ih _ _).mp hr
          refine ⟨by simp [h1], ?_⟩
          rw [(readIdx_iff _ _).mp hp, h2]
          simp [pointBytes]
        · cases h
    · rintro ⟨h1, rfl⟩
      rw [← h1]; exact readPoints_pointBytes l

/-- Pairs of identifier and value are read from their own bytes. -/
theorem readParams_iff (n : Nat) (l : List (ParamId × Byte)) : ∀ b : List Byte,
    readParams n b = some l ↔ l.length = n ∧ b = l.flatMap fun i => [i.1.code, i.2] := by
  induction n generalizing l with
  | zero => intro b; cases b <;> cases l <;> simp [readParams]
  | succ n ih =>
    intro b
    constructor
    · intro h
      match b, h with
      | i :: v :: rest, h =>
        simp only [readParams] at h
        split at h
        · next p ps hp hr =>
          cases h
          obtain ⟨h1, h2⟩ := (ih _ _).mp hr
          refine ⟨by simp [h1], ?_⟩
          rw [(paramOf_iff _ _).mp hp, h2]
          simp
        · cases h
    · rintro ⟨h1, rfl⟩
      match l, h1 with
      | a :: l, h1 =>
        have hr := (ih l _).mpr ⟨by simpa using h1, rfl⟩
        simp only [List.flatMap_cons, List.cons_append, List.nil_append, readParams, hr,
          (paramOf_iff _ _).mpr rfl]

/-- The bytes of a declaration. -/
def declBytes (d : Decl) : List Byte := [byteOf d.point.val, byteOf d.width, if d.held then 0x01 else 0x00]

/-- Declarations of widths 1..16 are read from their own bytes. -/
theorem readDecls_iff (n : Nat) (l : List Decl) : ∀ b : List Byte,
    readDecls n b = some l ↔
      l.length = n ∧ (∀ d ∈ l, 1 ≤ d.width ∧ d.width ≤ 16) ∧ b = l.flatMap declBytes := by
  induction n generalizing l with
  | zero => intro b; cases b <;> cases l <;> simp [readDecls, declBytes]
  | succ n ih =>
    intro b
    constructor
    · intro h
      match b, h with
      | p :: w :: e :: rest, h =>
        simp only [readDecls] at h
        split at h
        · next pt ds hp hr =>
          split at h
          · next hw =>
            cases h
            obtain ⟨h1, h2, h3⟩ := (ih _ _).mp hr
            refine ⟨by simp [h1], ?_, ?_⟩
            · intro d hd
              rcases List.mem_cons.mp hd with rfl | hd
              · exact ⟨hw.1, hw.2.1⟩
              · exact h2 d hd
            · have he : e = if decide (e = 1#8) = true then 0x01 else 0x00 := by
                by_cases h4 : e = 1#8
                · simp [h4]
                · have h5 : e.toNat ≠ 1 := fun h => h4 (BitVec.eq_of_toNat_eq h)
                  have h6 : e.toNat = 0 := by omega
                  have h7 : e = 0#8 := BitVec.eq_of_toNat_eq h6
                  simp [h7]
              rw [(readIdx_iff _ _).mp hp, h3, List.flatMap_cons]
              simp only [declBytes, byteOf_of_toNat, List.cons_append, List.nil_append]
              rw [← he]
          · cases h
        · cases h
    · rintro ⟨h1, h2, rfl⟩
      match l, h1 with
      | d :: l, h1 =>
        have hr := (ih l _).mpr ⟨by simpa using h1, fun x hx => h2 x (List.mem_cons_of_mem _ hx), rfl⟩
        have hd := h2 d (List.mem_cons_self ..)
        have hw := byteOf_toNat (n := d.width) (by omega)
        obtain ⟨p, w, e⟩ := d
        simp only [List.flatMap_cons, declBytes, List.cons_append, List.nil_append, readDecls, hr,
          (readIdx_iff _ _).mpr rfl]
        cases e <;> simp [hw, hd.1, hd.2]

/-- A list body is read exactly from its count and its list's own bytes, when its reader does so. -/
theorem readCounted_iff {α κ : Type} [DecidableEq κ] {rd : Nat → List Byte → Option (List α)} {key : α → κ}
    {p : List α → Prop} {f : List α → List Byte}
    (h : ∀ (n : Nat) (l : List α) (b : List Byte), rd n b = some l ↔ l.length = n ∧ p l ∧ b = f l)
    (l : List α) (b : List Byte) :
    readCounted rd key b = some l ↔
      1 ≤ l.length ∧ l.length ≤ 16 ∧ (l.map key).Nodup ∧ p l ∧ b = byteOf l.length :: f l := by
  constructor
  · intro hb
    have hn := nodup_of_readCounted hb
    match b, hb with
    | n :: rest, hb =>
      simp only [readCounted] at hb
      split at hb
      · next hl =>
        split at hb
        · next xs hx =>
          split at hb
          · cases hb
            obtain ⟨h1, h2, h3⟩ := (h _ _ _).mp hx
            exact ⟨by omega, by omega, hn, h2, by rw [h1, byteOf_of_toNat, h3]⟩
          · cases hb
        · cases hb
      · cases hb
  · rintro ⟨h1, h2, h3, h4, rfl⟩
    exact readCounted_of_read h1 h2 h3 ((h _ _ _).mpr ⟨rfl, h4, rfl⟩)

/-- A class reads back, and only its own byte names it. -/
theorem classOf_iff (b : Byte) (c : HoldClass) : HoldClass.ofCode? b = some c ↔ c.code = b := by
  constructor
  · intro h
    unfold HoldClass.ofCode? at h
    simpa using List.find?_some h
  · rintro rfl
    cases c <;> rfl

/-- R178: the values of a reply are the bytes before the frame check, two for each. -/
theorem readValues_iff (n : Nat) (vs : List Word) : ∀ l : List Byte,
    readValues n l = some vs ↔
      ∃ chk, l = vs.flatMap wordBytes ++ chk ∧ chk.length = 2 ∧ vs.length = n := by
  induction n generalizing vs with
  | zero =>
    intro l
    constructor
    · intro h
      match l, h with
      | [a, b], h => simp [readValues] at h; subst h; exact ⟨[a, b], rfl, rfl, rfl⟩
    · rintro ⟨chk, rfl, hc, hv⟩
      have := List.length_eq_zero_iff.mp hv
      subst this
      match chk, hc with
      | [a, b], _ => rfl
  | succ n ih =>
    intro l
    constructor
    · intro h
      match l, h with
      | hi :: lo :: rest, h =>
        simp only [readValues] at h
        split at h
        · next ws hws =>
          cases h
          obtain ⟨chk, h1, h2, h3⟩ := (ih _ _).mp hws
          exact ⟨chk, by simp [wordBytes_wordOf, h1], h2, by simp [h3]⟩
        · cases h
    · rintro ⟨chk, rfl, hc, hv⟩
      match vs, hv with
      | v :: vs, hv =>
        have := (ih vs (vs.flatMap wordBytes ++ chk)).mpr ⟨chk, rfl, hc, by simpa using hv⟩
        show (match readValues n (vs.flatMap wordBytes ++ chk) with
            | some ws => some (wordOf (byteOf (v.toNat / 256)) (byteOf v.toNat) :: ws)
            | none => none) = _
        rw [this, wordOf_wordBytes]

end Sys2Proof
end

