-- ==== Sys2Proof/Laws/Requests.lean ====
section
/-! SUPPORT. What a request frame passes before its own effect: who takes it, a fault of structure, the manager
set, the checks on a node entry, the joining of the forward queue. -/

namespace Sys2Proof.Machine

/-! ## Node addresses and codes -/

/-- The numbers that are no node address. -/
theorem ofAddr_none_iff (a : Nat) : NodeIdx.ofAddr? a = none ↔ a = 0 ∨ 49 ≤ a := by
  unfold NodeIdx.ofAddr?
  split <;> simp <;> omega

/-- A kind byte that names a kind is its code. -/
theorem code_of_ofCode {b : Byte} {k : ReqKind} (h : ReqKind.ofCode? b = some k) : k.code = b := by
  unfold ReqKind.ofCode? at h
  simpa using List.find?_some h

/-! ## Frames that are well formed, and frames that are not -/

variable {α : Type} {k : ReqKind} {rd : List Byte → Option α} {rq : Request} {s : State} {a : α}

/-- A well-formed node frame reaches its kind's own part. -/
theorem nodeRequest_of_forNode {n : NodeIdx} {act : NodeIdx → α → State → State}
    (ht : s.takesFrames = true) (h : ForNode rd rq n a) : nodeRequest k rd rq act s = act n a s := by
  unfold nodeRequest
  rw [if_pos ht, h.1, h.2]

/-- A well-formed frame for the part reaches its kind's own part. -/
theorem segmentRequest_of_forPart {act : α → State → State} (ht : s.takesFrames = true)
    (h : ForPart rd rq a) : segmentRequest k rd rq act s = act a s := by
  unfold segmentRequest
  rw [if_pos ht]
  split
  · next h2 => rw [h.2] at h2; cases h2; rfl
  · next h2 => exact absurd (h2 _ h.1 h.2) (fun x => x)

/-- A managed frame reaches its kind's own part. -/
theorem managementRequest_of_managed {act : α → State → State} (h : Managed rd rq a s) :
    managementRequest k rd rq act s = act a s := by
  unfold managementRequest
  rw [segmentRequest_of_forPart h.1 h.2.1, if_pos h.2.2]

/-- A well-formed management frame from outside the manager set is refused. -/
theorem managementRequest_of_not_manager {act : α → State → State} (ht : s.takesFrames = true)
    (h : ForPart rd rq a) (hm : s.params.isManager rq.originator = false) :
    managementRequest k rd rq act s = answer s (replyTo rq k .notPermitted) s := by
  unfold managementRequest
  rw [segmentRequest_of_forPart ht h]
  simp [hm]

/-- A node frame that is not well formed. -/
theorem nodeRequest_of_malformed {act : NodeIdx → α → State → State} (ht : s.takesFrames = true)
    (h : NodeIdx.ofAddr? rq.destination.toNat = none ∨ rq.sizedBody.bind rd = none) :
    nodeRequest k rd rq act s = malformed k.code rq s := by
  unfold nodeRequest
  rw [if_pos ht]
  rcases h with h | h <;> simp only [h]
  cases NodeIdx.ofAddr? rq.destination.toNat <;> rfl

/-- A frame for the part that is not well formed. -/
theorem segmentRequest_of_malformed {act : α → State → State} (ht : s.takesFrames = true)
    (h : rq.destination.toNat ≠ 0 ∨ rq.sizedBody.bind rd = none) :
    segmentRequest k rd rq act s = malformed k.code rq s := by
  unfold segmentRequest
  rw [if_pos ht]
  rcases h with h | h
  · split
    · next h1 h2 => exact absurd h1 h
    · rfl
  · rw [h]
    split
    · next h2 => cases h2
    · rfl

/-- What every well-formed frame, a MALFORMED answer and nothing keep, a node request keeps. -/
theorem nodeRequest_keeps {P : State → Prop} {act : NodeIdx → α → State → State} (hs : P s)
    (hm : P (malformed k.code rq s)) (ha : ∀ n a, P (act n a s)) : P (nodeRequest k rd rq act s) := by
  unfold nodeRequest
  split
  · split
    · exact ha _ _
    · exact hm
  · exact hs

/-- The same for a request to the part. -/
theorem segmentRequest_keeps {P : State → Prop} {act : α → State → State} (hs : P s)
    (hm : P (malformed k.code rq s)) (ha : ∀ a, P (act a s)) : P (segmentRequest k rd rq act s) := by
  unfold segmentRequest
  split
  · split
    · exact ha _
    · exact hm
  · exact hs

/-! ## The checks on a node entry -/

/-- A forwardable request without a bit passes checks 3 to 6. -/
theorem arrivalCheck_of_forwardable {n : NodeIdx} {pts : List PointIdx} (k : ReqKind)
    (h : Forwardable s n pts) : arrivalCheck s k n pts none = none := by
  obtain ⟨h1, h2, h3⟩ := h
  have : nodeStateRefuses k (s.node n).state = false := by
    cases h : (s.node n).state <;> simp_all [nodeStateRefuses, NodeState.inService]
  simp [arrivalCheck, h1, this]
  intro p hp
  have := h3 p hp
  simpa [Option.ne_none_iff_isSome] using this

/-- A forwardable request with a bit passes or fails by its bit. -/
theorem arrivalCheck_of_forwardable_bit {n : NodeIdx} {p : PointIdx} {w : Nat} (k : ReqKind) (b : Fin 16)
    (h : Forwardable s n [p]) (hw : (s.point n p).width = some w) :
    arrivalCheck s k n [p] (some (p, b)) = if w ≤ b.val then some .badBit else none := by
  obtain ⟨h1, h2, h3⟩ := h
  have : nodeStateRefuses k (s.node n).state = false := by
    cases h : (s.node n).state <;> simp_all [nodeStateRefuses, NodeState.inService]
  simp [arrivalCheck, h1, this, hw, badBit]

/-- A TEST of a declared point of a node that is not ABSENT passes or fails by its bit. -/
theorem arrivalCheck_test {n : NodeIdx} {p : PointIdx} {w : Nat} (b : Fin 16)
    (ha : (s.node n).state ≠ .absent) (hw : (s.point n p).width = some w) :
    arrivalCheck s .test n [p] (some (p, b)) = if w ≤ b.val then some .badBit else none := by
  have : nodeStateRefuses .test (s.node n).state = false := by
    cases h : (s.node n).state <;> simp_all [nodeStateRefuses, ReqKind.forwarded]
  simp [arrivalCheck, this, hw, badBit, ReqKind.forwarded]

/-- A CLAIM of a declared point of a node in service passes. -/
theorem arrivalCheck_claim {n : NodeIdx} {p : PointIdx} (hn : (s.node n).state.inService = true)
    (hw : (s.point n p).width.isSome = true) : arrivalCheck s .claim n [p] none = none := by
  have : nodeStateRefuses .claim (s.node n).state = false := by
    cases h : (s.node n).state <;> simp_all [nodeStateRefuses, NodeState.inService]
  simp [arrivalCheck, this, ReqKind.forwarded]
  cases h : (s.point n p).width <;> simp_all

/-- An UNCLAIM or STAGE of declared points of a node that is not ABSENT passes. -/
theorem arrivalCheck_local {n : NodeIdx} {pts : List PointIdx} (hk : k = .unclaim ∨ k = .stage)
    (ha : (s.node n).state ≠ .absent) (hw : ∀ p ∈ pts, (s.point n p).width.isSome = true) :
    arrivalCheck s k n pts none = none := by
  have : nodeStateRefuses k (s.node n).state = false := by
    rcases hk with rfl | rfl <;> cases h : (s.node n).state <;>
      simp_all [nodeStateRefuses, ReqKind.forwarded]
  have hf : k.forwarded = false := by rcases hk with rfl | rfl <;> rfl
  simp [arrivalCheck, this, hf]
  intro p hp
  have := hw p hp
  cases h : (s.point n p).width <;> simp_all

/-! ## OVERRANGE -/

/-- Values in range pass the check. -/
theorem find_of_fits {n : NodeIdx} {items : List Item} (h : Fits s n items) :
    items.find? (itemExceeds (s.node n)) = none := by
  rw [List.find?_eq_none]
  intro it hit
  have := h it hit
  unfold itemExceeds
  rw [show (s.node n).point it.point = s.point n it.point from rfl]
  cases hw : (s.point n it.point).width with
  | none => simp
  | some w => simp [exceeds]; exact this w hw

/-- R95: the value of an item let through, whether it exceeds its width or not. -/
theorem truncateItem_eq {n : NodeIdx} {it : Item} (h : (s.point n it.point).width.isSome = true) :
    truncateItem (s.node n) it =
      { it with value := BitVec.ofNat 16 (it.value.toNat % 2 ^ ((s.point n it.point).width.getD 16)) } := by
  unfold truncateItem
  rw [show (s.node n).point it.point = s.point n it.point from rfl]
  cases hw : (s.point n it.point).width with
  | none => simp [hw] at h
  | some w =>
    simp [exceeds, truncate]
    intro hlt
    cases it
    simp
    rw [Nat.mod_eq_of_lt hlt]
    simp

/-! ## Joining the forward queue -/

/-- With room, an entry joins the tail. -/
theorem joinForward_of_room {n : NodeIdx} {op : NodeOp} (h : s.forwardFull rq.originator = false) :
    s.joinForward k rq n op {} =
      queued s { originator := rq.originator, tag := rq.tag, node := n, op := op } := by
  simp [State.joinForward, h, queued, State.passOverrange]

/-- With room, an entry that OVERRANGE let through joins the tail after the pass is made. -/
theorem joinForward_of_room_overrange {n : NodeIdx} {op : NodeOp}
    (h : s.forwardFull rq.originator = false) :
    s.joinForward k rq n op { overrange := true } =
      queued (s.impotentPass .overrange)
        { originator := rq.originator, tag := rq.tag, node := n, op := op,
          passed := { overrange := true } } := by
  simp only [State.joinForward, h, queued, State.passOverrange]
  rfl

/-- Without room, BUSY. -/
theorem joinForward_of_full {n : NodeIdx} {op : NodeOp} {c : CondSet}
    (h : s.forwardFull rq.originator = true) :
    s.joinForward k rq n op c = (s.count .requestsBusy).respond (replyTo rq k .busy) := by
  simp [State.joinForward, h]

end Sys2Proof.Machine
end

