-- ==== Sys2Proof/Laws/Declarations.lean ====
section
/-! SUPPORT. Declarations: which operations leave every point's width and held mark alone (R4), operation by
operation up to a decision of the arbiter and the end of an event. -/

namespace Sys2Proof.Machine

/-- Every point has the same width and held mark in both states. -/
def SameDecls (s t : State) : Prop :=
  ∀ (n : NodeIdx) (p : PointIdx),
    (t.point n p).width = (s.point n p).width ∧ (t.point n p).held = (s.point n p).held

/-- A state has its own declarations. -/
theorem sameDecls_refl (s : State) : SameDecls s s := fun _ _ => ⟨rfl, rfl⟩

variable {s t : State}

/-- Declarations stand in the Node Table alone. -/
theorem sameDecls_of_nodes {u : State} (hn : u.nodes = t.nodes) (h : SameDecls s t) : SameDecls s u := by
  intro n p
  rw [point_of_same_nodes hn]
  exact h n p

/-- An entry replaced by one with the same declarations. -/
theorem setNode_sameDecls {n : NodeIdx} {e : NodeEntry}
    (he : ∀ p, (e.point p).width = (t.point n p).width ∧ (e.point p).held = (t.point n p).held)
    (h : SameDecls s t) : SameDecls s (t.setNode n e) := by
  intro m p
  have hm := h m p
  unfold State.point at *
  rw [node_setNode]
  split
  · next hnm =>
    subst hnm
    exact ⟨(he p).1.trans hm.1, (he p).2.trans hm.2⟩
  · exact hm

/-- An entry replaced by one with the same points. -/
theorem setNode_sameDecls_of_points {n : NodeIdx} {e : NodeEntry} (he : e.points = (t.node n).points)
    (h : SameDecls s t) : SameDecls s (t.setNode n e) :=
  setNode_sameDecls (fun p => by simp [State.point, NodeEntry.point, he]) h

/-- A point replaced by one with the same declaration. -/
theorem setPoint_sameDecls {n : NodeIdx} {p : PointIdx} {r : PointRec}
    (hw : r.width = (t.point n p).width) (hh : r.held = (t.point n p).held) (h : SameDecls s t) :
    SameDecls s (t.setPoint n p r) := by
  refine setNode_sameDecls (fun q => ?_) h
  rw [point_setPoint]
  split
  · next hpq => subst hpq; exact ⟨hw, hh⟩
  · exact ⟨rfl, rfl⟩

/-! ## Values -/

theorem setPending_sameDecls (n : NodeIdx) (p : PointIdx) (v : Option Word) (h : SameDecls s t) :
    SameDecls s (t.setPending n p v) := setPoint_sameDecls rfl rfl h

theorem setActive_sameDecls (n : NodeIdx) (p : PointIdx) (v : Word) (c : BreakCause)
    (h : SameDecls s t) : SameDecls s (t.setActive n p v c) :=
  sameDecls_of_nodes (breakClaim_nodes _ n p c) (setPoint_sameDecls rfl rfl h)

theorem dropPending_sameDecls (es : List StageEntry) (h : SameDecls s t) :
    SameDecls s (t.dropPending es) :=
  foldl_induction (fun _ _ h => setPending_sameDecls _ _ _ h) es t h

theorem applyWrite_sameDecls (n : NodeIdx) (items : List Item) (h : SameDecls s t) :
    SameDecls s (t.applyWrite n items) :=
  foldl_induction (fun _ _ h => setActive_sameDecls _ _ _ _ h) items t h

theorem takePoint_sameDecls (e : StageEntry) (h : SameDecls s t) : SameDecls s (t.takePoint e) := by
  unfold State.takePoint
  split
  · exact setActive_sameDecls _ _ _ _ h
  · exact h

/-! ## The Commit Engine -/

theorem endFailed_sameDecls (c : Commit) (n : NodeIdx) (f : FailCause) (h : SameDecls s t) :
    SameDecls s (t.endFailed c n f) :=
  sameDecls_of_nodes (endCommit_nodes _ _ _ _) (dropPending_sameDecls _ h)

theorem failCommit_sameDecls (c : Commit) (n : NodeIdx) (f : FailCause) (h : SameDecls s t) :
    SameDecls s (t.failCommit c n f) := by
  unfold State.failCommit
  split
  · exact endFailed_sameDecls _ _ _ h
  · exact h

theorem loadOutcome_sameDecls (n : NodeIdx) (tag : Byte) (items : List Item) (o : DropOutcome)
    (h : SameDecls s t) : SameDecls s (t.loadOutcome n tag items o) := by
  unfold State.loadOutcome
  split
  · split
    · split
      · exact foldl_induction (P := SameDecls s) (fun _ _ h => setPending_sameDecls _ _ _ h) items t h
      · exact failCommit_sameDecls _ _ _ h
      · exact failCommit_sameDecls _ _ _ h
    · exact h
  · exact h

theorem takeEnded_sameDecls (tag : Byte) (h : SameDecls s t) : SameDecls s (t.takeEnded tag) := by
  unfold State.takeEnded
  split
  · split
    · exact sameDecls_of_nodes (endCommit_nodes _ _ _ _)
        (dropPending_sameDecls _ (foldl_induction (fun _ _ h => takePoint_sameDecls _ h) _ t h))
    · exact h
  · exact h

theorem abandonEnded_sameDecls (tag : Byte) (h : SameDecls s t) : SameDecls s (t.abandonEnded tag) := by
  unfold State.abandonEnded
  split
  · split
    · split
      · exact endFailed_sameDecls _ _ _ h
      · exact h
    · exact h
    · exact h
  · exact h

/-! ## Node health and accrual -/

theorem accrue_points (n : NodeIdx) (e : NodeEntry) : (accrue n e).1.points = e.points := by
  unfold accrue
  split
  all_goals try rfl
  all_goals dsimp only; split <;> rfl

theorem accrueAll_sameDecls (p : Fin 4) (h : SameDecls s t) : SameDecls s (t.accrueAll p) :=
  foldl_induction (P := SameDecls s)
    (fun _ _ h => setNode_sameDecls_of_points (accrue_points _ _) h) _ t h

theorem wakeAll_sameDecls (h : SameDecls s t) : SameDecls s t.wakeAll := by
  intro n p
  have e : t.wakeAll.point n p = t.point n p := by
    unfold State.point
    rw [node_wakeAll]
    unfold wakeEntry
    split <;> rfl
  rw [e]
  exact h n p

theorem health_sameDecls (n : NodeIdx) (r : Bool) (o : DropOutcome) (h : SameDecls s t) :
    SameDecls s (t.health n r o) := by
  have hv : ∀ a c, SameDecls s (t.healthValid n r a c) := by
    intro a c
    unfold State.healthValid
    dsimp only
    split
    · exact sameDecls_of_nodes (offer?_nodes _ _) (setNode_sameDecls_of_points rfl h)
    · exact sameDecls_of_nodes (offer?_nodes _ _) (setNode_sameDecls_of_points rfl h)
    · exact sameDecls_of_nodes (offer?_nodes _ _) (setNode_sameDecls_of_points rfl h)
    · exact setNode_sameDecls_of_points rfl h
    · exact h
  have hn : SameDecls s (t.healthNoReply n r) := by
    have live : ∀ e : NodeEntry, e.points = (t.node n).points →
        SameDecls s (if e.silence + 1 = 3 then
          (t.setNode n { e with silence := 3, state := .silent, probe := 8 }).offer (.silent n)
        else t.setNode n { e with silence := e.silence + 1 }) := by
      intro e he
      split
      · exact sameDecls_of_nodes (offer_nodes _ _) (setNode_sameDecls_of_points he h)
      · exact setNode_sameDecls_of_points he h
    unfold State.healthNoReply
    dsimp only
    split
    · exact live _ rfl
    · exact live _ rfl
    · split
      · exact setNode_sameDecls_of_points rfl h
      · exact h
    · exact h
    · exact h
  unfold State.health
  split
  · exact hv _ _
  · exact hv _ _
  · exact hn

/-! ## Outcomes -/

theorem ownerOutcome_sameDecls (u : UniTxn) (o : DropOutcome) (h : SameDecls s t) :
    SameDecls s (t.ownerOutcome u o) := by
  have hr : ∀ (e : FwdEntry) (v : State), (v.releaseOutcome e o).nodes = v.nodes := by
    intro e v
    unfold State.releaseOutcome
    split
    · split <;> rfl
    all_goals rfl
  unfold State.ownerOutcome
  split
  · unfold State.writeOutcome
    split
    · exact h
    · dsimp only
      refine sameDecls_of_nodes (respond_nodes _ _) ?_
      split
      · exact applyWrite_sameDecls _ _ (sameDecls_of_nodes (hr _ _) h)
      · exact sameDecls_of_nodes (hr _ _) h
      · exact sameDecls_of_nodes (hr _ _) h
  · unfold State.readOutcome
    split
    · exact h
    · exact sameDecls_of_nodes (respond_nodes _ _) h
  · exact sameDecls_of_nodes (renewOutcome_nodes _ _ _) h
  · exact loadOutcome_sameDecls _ _ _ _ h

theorem handOver_sameDecls (u : UniTxn) (o : DropOutcome) (h : SameDecls s t) :
    SameDecls s (t.handOver u o) :=
  health_sameDecls _ _ _ (ownerOutcome_sameDecls _ _ (sameDecls_of_nodes (t := t) rfl h))

/-! ## Grants, decisions and the end of an event -/

/-- The grant of a forward-queue entry leaves the Node Table alone. -/
theorem grantEntry_nodes (e : FwdEntry) (t : State) : (grantEntry e t).1.nodes = t.nodes := by
  have hc : ∀ (e : FwdEntry) (pts : List PointIdx) (v : State),
      (conflictCheck e pts v).state.nodes = v.nodes := by
    intro e pts v
    unfold conflictCheck
    split
    · rfl
    · split <;> simp [refusePotent, passImpotent]
  have hb : ∀ (e : FwdEntry) (p : PointIdx) (c : Claim) (v : State),
      (brokenCheck e p c v).state.nodes = v.nodes := by
    intro e p c v
    unfold brokenCheck
    split
    · rfl
    · split <;> simp [refusePotent, passImpotent, State.dropClaim]
  have hf : ∀ (e : FwdEntry) (st : Status) (v : State), (refuseGrant e st v).1.nodes = v.nodes :=
    fun _ _ _ => respond_nodes _ _
  have hs : ∀ (e : FwdEntry) (m : Option (Word × Bool)) (f : UniFrame) (v : State),
      (startInHand e m f v).1.nodes = v.nodes := fun _ _ _ _ => rfl
  have ha : ∀ (g : GrantCheck) (m : Option (Word × Bool)) (f : UniFrame),
      (afterConflict g m f).1.nodes = g.state.nodes := by
    intro g m f
    unfold afterConflict
    split
    · exact hf _ _ _
    · exact hs _ _ _ _
  unfold grantEntry
  split
  · split
    · exact hs _ _ _ _
    · exact (ha _ _ _).trans (hc _ _ _)
    · split
      · exact hf _ _ _
      · exact (ha _ _ _).trans (hc _ _ _)
    · split
      · exact hf _ _ _
      · dsimp only
        split
        · exact (hf _ _ _).trans (hb _ _ _ _)
        · unfold afterReleaseConflict
          split
          · exact (hf _ _ _).trans ((hc _ _ _).trans (hb _ _ _ _))
          · exact (hs _ _ _ _).trans ((hc _ _ _).trans (hb _ _ _ _))
  · exact hf _ _ _

theorem grant_sameDecls (r : Requester) (h : SameDecls s t) : SameDecls s (grant r t).1 := by
  cases r
  · show SameDecls s (grantFwd t).1
    unfold grantFwd
    split
    · exact h
    · exact sameDecls_of_nodes (grantEntry_nodes _ _) h
  · show SameDecls s (grantCmt t).1
    unfold grantCmt
    split
    · exact h
    · exact h
    · exact h
    · exact h
    · split
      · exact h
      · exact h
      all_goals exact failCommit_sameDecls _ _ _ h
  · show SameDecls s (grantRnw t).1
    unfold grantRnw
    split
    · exact h
    · exact h

theorem decideGrant_sameDecls (r : Requester) (st : GrantStep) (h : SameDecls s t) :
    SameDecls s (t.decideGrant r st).1 :=
  sameDecls_of_nodes ((closeEvent_nodes _ _).trans (endDrain_nodes _))
    (grant_sameDecls r (sameDecls_of_nodes (t := t) rfl h))

theorem arbitrate_sameDecls (h : SameDecls s t) : SameDecls s t.arbitrate :=
  arbitrate_keeps (fun _ r st h _ => decideGrant_sameDecls r st h) h

theorem finish_sameDecls (b : State) (h : SameDecls s t) : SameDecls s (finish b t) :=
  finish_keeps (fun _ _ h _ _ => h) (fun _ r st h _ => decideGrant_sameDecls r st h) b
    (sameDecls_of_nodes (endDrain_nodes t) h)

/-- R42, R45: a phase event. -/
theorem phaseEvent_sameDecls (h : SameDecls s t) : SameDecls s t.phaseEvent := by
  refine finish_sameDecls _ ?_
  unfold State.phaseStep
  refine sameDecls_of_nodes (offerGroups_nodes _ _ _ _) (sameDecls_of_nodes (agePhase_nodes _) ?_)
  unfold State.accruePhase
  split
  · exact sameDecls_of_nodes (advancePhase_nodes t) h
  · exact accrueAll_sameDecls _ (sameDecls_of_nodes (advancePhase_nodes t) h)

/-- R30: the reply window's expiry. -/
theorem windowExpire_sameDecls (h : SameDecls s t) : SameDecls s t.windowExpire := by
  unfold State.windowExpire
  split
  · split
    · exact finish_sameDecls _ (handOver_sameDecls _ _ (sameDecls_of_nodes (count_nodes _ _) h))
    · exact h
  · exact h
  · exact h

end Sys2Proof.Machine
end

