-- ==== Sys2Proof/WellFormed.lean ====
section
/-! DEFINITION. When a command term is an event of its row. A request row's frame may hold anything after its
check, faults of structure included (R68 answers those), and a frame on the drop bus may be any bytes (R28,
R29). Two rows say more: TRUNK_CRC_FAILURE is a frame that fails its check or is cut short (R67), and
UNKNOWN_KIND_FRAME is a frame with an unknown kind code or a destination outside 0..48 (its row). -/

namespace Sys2Proof

/-- R67: a received frame that fails its frame check, is too short, or is cut short. -/
def crcFailureOk (frame : List Byte) (cutShort : Bool) : Bool := cutShort || !checkGood frame

/-- The row UNKNOWN_KIND_FRAME: a kind code that is no request kind, or a destination outside 0..48. -/
def unknownKindOk (kind : Byte) (rq : Request) : Bool :=
  (ReqKind.ofCode? kind).isNone || decide (48 < rq.destination.toNat)

/-- The command is an event of its row. -/
def Instr.wellFormed : Instr → Bool
  | .trunkCrcFailure f c => crcFailureOk f c
  | .unknownKindFrame k rq => unknownKindOk k rq
  | .powerOn | .resetAsserted | .resetReleased | .fullResetTaken
  | .closingFrameDiscarded _
  | .write _ | .modify _ | .read _ | .release _ | .test _ | .claim _ | .unclaim _ | .stage _
  | .commit _ | .discard _
  | .configureNode _ | .removeNode _ | .parkNode _ | .unparkNode _ | .nodeStatus _
  | .setParameters _ | .readParameters _ | .setMode _ | .flush _ | .fullReset _
  | .readStatus _ | .readExceptions _ | .readNotices _ | .setNoticeMask _ | .readCounters _
  | .trunkFrameTransmitted | .arbiterDecision | .idleWindowElapsed | .unicastTransmissionEnd
  | .takeTransmissionEnd | .abandonTransmissionEnd | .clearTransmissionEnd
  | .dropReplyTaken _ | .freeFrameReceived _ | .replyWindowExpiry | .phaseEvent
  | .intervalExpiry | .commitTaken | .drainEnd => true

end Sys2Proof
end

