-- ==== Sys2Proof/Tests/Slice0.lean ====
section
/-! SUPPORT. The author's tests: the smoke test of the check on command terms, the manual's own numbers, one effect
of each family of commands, and for every statement with hypotheses a state and operands that meet them, each clause
at a boundary of its range. -/

namespace Sys2Proof.Tests

open Sys2Proof Sys2Proof.Machine

set_option maxRecDepth 100000

/-! ## Small states -/

/-- A well-sized request frame with tag 7. -/
def frame (dest : BitVec 6) (body : List Byte) (o : Originator := 0) : Request :=
  { originator := o, destination := dest, tag := 7, length := byteOf body.length, body := body }

/-- A point record. -/
def pt (w : Nat) (held : Bool) (active pending : Option Word) : PointRec :=
  { width := some w, held := held, active := active, pending := pending }

/-- A node with three declared points: 0 with an active value, 1 UNSET, 2 with a pending value. -/
def entry (st : NodeState) (debt silence : Nat) : NodeEntry :=
  (((({ state := st, cls := .standard, debt := debt, silence := silence } : NodeEntry).setPoint 0
    (pt 8 true (some 5) none)).setPoint 1 (pt 16 false none none)).setPoint 2
    (pt 4 false (some 3) (some 1)))

/-- RUN, with node addresses 1 LIVE, 2 PARKED, 3 SILENT, 4 LAPSED, and the others ABSENT. -/
def base : State :=
  (((({ mode := .run } : State).setNode 0 (entry .live 0 2)).setNode 1 (entry .parked 0 0)).setNode 2
    (entry .silent 3 3)).setNode 3 (entry .lapsed 8 0)

/-- The state in another mode. -/
def inMode (m : Mode) (s : State) : State := { s with mode := m }

/-- A response to fill the transmit queue with. -/
def filler : TrunkFrame := .response { originator := 0, tag := 0, kind := 1, status := .ok }

/-- The state with `k` frames in its transmit queue. -/
def withFrames (k : Nat) (closing : Bool) (s : State) : State :=
  { s with tp := { s.tp with queue := List.replicate k filler, closing := closing } }

/-- The state with `k` exception records. -/
def withRecords (k : Nat) (s : State) : State :=
  { s with exq := { s.exq with queue := List.replicate k { body := .silent 2, stamp := 9 } } }

/-- A forward-queue entry of originator 0 for node address 1. -/
def fwd (op : NodeOp) : FwdEntry := { originator := 0, tag := 3, node := 0, op := op }

/-- The state with these entries in its forward queue. -/
def withForward (es : List FwdEntry) (s : State) : State := { s with pou := { s.pou with forward := es } }

/-- The state with a transaction in flight. -/
def withTxn (t : Txn) (s : State) : State := { s with dbc := { s.dbc with txn := some t } }

/-- A unicast transaction to node address 1. -/
def uni (f : UniFrame) (c : TxnCond) (window left : Nat) : UniTxn :=
  { node := 0, frame := f, window := window, cond := c, windowLeft := left }

/-- The state with originator 0's claim on point 0 of node address 1. -/
def withClaim (st : ClaimState) (releasing : Bool) (s : State) : State :=
  { s with claims := [{ originator := 0, node := 0, point := 0, value := some 5, state := st,
                        releasing := releasing, life := 1 }] }

/-- The state with eight claims of originator 1, none on a point of node address 1. -/
def withEightClaims (s : State) : State :=
  { s with claims := (List.finRange 8).map fun i =>
      { originator := 1, node := 3, point := Fin.castLE (by decide) i, value := none, state := .intact,
        releasing := false, life := 2 } }

/-- An entry of a stage. -/
def one : StageEntry := { node := 0, point := 0, value := 9 }

/-- The state with originator 0's stage so. -/
def withStage (st : StageState) (es : List StageEntry) (request tag : Option Byte) (s : State) : State :=
  s.setStage 0 { state := st, entries := es, life := some 1, request := request, tag := tag }

/-- 64 stage entries, none for node address 1. -/
def full64 : List StageEntry := List.replicate 64 { node := 5, point := 0, value := 0 }

/-- The commit of originator 0's stage, for node address 1. -/
def commitOf (p : CommitPhase) (loaded : List NodeIdx) : Commit :=
  { originator := 0, phase := p, order := [0], position := loaded.length, loaded := loaded }

/-- The state with the commit of originator 0's stage in flight, tag 200, in this phase. -/
def withCommit (p : CommitPhase) (loaded : List NodeIdx) (s : State) : State :=
  let t := withStage .committing [one] (some 7) (some 200) s
  { t with ce := { t.ce with commit := some (commitOf p loaded) } }

/-- The state a command leaves. -/
def after (c : Instr) (s : State) : State :=
  match exec c s with
  | .next t => t
  | .fault _ | .refused _ => s

/-- The status and body of the last frame of the transmit queue, if it is a response. -/
def lastAnswer (s : State) : Option (Status × List Byte) :=
  match s.tp.queue.getLast? with
  | some (.response r) => some (r.status, r.body)
  | some (.notice _ _ _) | none => none

/-- R73 by the check that the model makes. -/
theorem fits_of_find {s : State} {n : NodeIdx} {items : List Item}
    (h : items.all (fun it => !itemExceeds (s.node n) it) = true) : Fits s n items := by
  intro it hit w hw
  have h1 := List.all_eq_true.mp h it hit
  have h2 : ((s.node n).point it.point).width = some w := hw
  simpa [itemExceeds, h2, exceeds] using h1

/-! ## Well-formed command terms -/

theorem test_wellFormed_request : (Instr.write (frame 1 [1, 0, 0, 5])).wellFormed = true := by decide

theorem test_wellFormed_cutShort : (Instr.trunkCrcFailure [1, 2] false).wellFormed = true := by decide

theorem test_illFormed_crcFailure :
    (Instr.trunkCrcFailure (trunkFrameBytes 0x2E (frame 0 [0])) false).wellFormed = false := by
  decide

theorem test_wellFormed_unknownKind :
    (Instr.unknownKindFrame 0x09 (frame 0 [])).wellFormed = true ∧
      (Instr.unknownKindFrame 0x01 (frame 49 [])).wellFormed = true := by decide

theorem test_illFormed_unknownKind :
    (Instr.unknownKindFrame 0x01 (frame 48 [])).wellFormed = false := by decide

/-! ## The manual's own numbers -/

/-- R176: the check of the nine bytes "123456789". -/
theorem test_crc :
    crc16 [0x31, 0x32, 0x33, 0x34, 0x35, 0x36, 0x37, 0x38, 0x39] = 0x29B1#16 := by decide

/-- R89: REVERSE of bits 0..7. -/
theorem test_reverse : BitOp.reverse.apply 7 0xFF13 = 0xFFC8 := by decide

/-- The table gives its rows no bits. -/
theorem test_noWordSpellsACommand : decodeTableWord 0 0 = none ∧ decodeTableWord 16 0xFFFF = none := by
  decide

/-! ## One effect of each family -/

theorem test_configureNode :
    let t := after (.configureNode (frame 0 (configureBody 47 [⟨15, 16, true⟩]))) State.reset
    (t.node 47).state = .parked ∧ t.point 47 15 = pt 16 true none none ∧
      lastAnswer t = some (.ok, [0x01]) := by decide

theorem test_unparkNode :
    let t := after (.unparkNode (frame 0 (nodeBody 1))) (inMode .halted base)
    (t.node 1).state = .live ∧ (t.node 1).debt = 2 ∧ lastAnswer t = some (.ok, [0x02]) := by
  decide

theorem test_setModeRun :
    let t := after (.setMode (frame 0 (modeBody .run))) State.reset
    t.mode = .run ∧ t.ce.clearOwed = true ∧ t.dbc.txn = some (.broad (.abandon 0)) := by decide +kernel

theorem test_clearTransmissionEnd :
    let t := after .clearTransmissionEnd
      (after (.setMode (frame 0 (modeBody .run))) State.reset)
    t.ce.clearOwed = false ∧ t.dbc.txn = none := by decide +kernel

/-- A WRITE in RUN is granted at once on a free bus, unless a node is at PANIC. -/
theorem test_writeIsGranted :
    let t := after (.write (frame 1 (itemsBody [⟨0, 7⟩]))) (base.setNode 3 {})
    t.pou.forward = [] ∧ t.pou.inHand.isSome = true ∧
      t.dbc.txn = some (.uni (uni (.write [⟨0, 7⟩]) .transmitting 3 0)) := by decide

theorem test_writeReply :
    let s := { withTxn (.uni (uni (.write [⟨0, 7⟩]) .awaiting 3 5)) (base.setNode 3 {}) with
      pou := { inHand := some { entry := fwd (.write [⟨0, 7⟩]) } } }
    let t := after (.dropReplyTaken (replyBytes 0 true .tight [])) s
    (t.point 0 0).active = some 7 ∧ t.pou.inHand = none ∧ lastAnswer t = some (.ok, []) ∧
      (t.node 0).silence = 0 ∧ (t.node 0).cls = .tight := by decide

theorem test_readReply :
    let s := { withTxn (.uni (uni (.read [0, 1]) .awaiting 3 5)) (base.setNode 3 {}) with
      pou := { inHand := some { entry := fwd (.read [0, 1]) } } }
    lastAnswer (after (.dropReplyTaken (replyBytes 0 true .standard [5, 0x1234])) s) =
      some (.ok, [2, 0x00, 0x05, 0x12, 0x34, 0x00, 0x02]) := by decide

theorem test_replyWindowExpiry :
    let t := after .replyWindowExpiry (withTxn (.uni (uni (.renew []) .awaiting 3 0)) base)
    (t.node 0).state = .silent ∧ t.counters.dropNoReply = 1 ∧ t.exq.queue.length = 1 := by
  decide

theorem test_stage :
    let t := after (.stage (frame 1 (itemsBody [⟨0, 7⟩, ⟨1, 0xFFFF⟩]))) base
    (t.stage 0).state = .opened ∧ t.poolFree = 190 ∧ lastAnswer t = some (.ok, [2, 0]) := by
  decide

theorem test_commit :
    let t := after (.commit (frame 0 [])) (withStage .opened [one] none none base)
    (t.stage 0).state = .committing ∧ t.ce.nextTag = 2 ∧ t.tp.queue = [] := by decide

theorem test_takeTransmissionEnd :
    let s := withTxn (.broad (.take 200)) (withCommit .taking [0] base)
    let t := after .takeTransmissionEnd (s.setPending 0 0 (some 9))
    (t.point 0 0).active = some 9 ∧ (t.point 0 0).pending = none ∧ (t.stage 0).state = .closed ∧
      lastAnswer t = some (.committed, [200, 1, 1]) := by decide

theorem test_abandonTransmissionEnd :
    let s := withTxn (.broad (.abandon 200)) (withCommit (.abandoning 0 .noReply) [0] base)
    lastAnswer (after .abandonTransmissionEnd s) = some (.commitFailed, [1, 0x13]) := by decide

theorem test_claim :
    let t := after (.claim (frame 1 (pointBody 0))) base
    t.claims.length = 1 ∧ lastAnswer t = some (.ok, [0x00, 0x05]) := by decide

theorem test_claimExpires :
    let t := after .intervalExpiry
      { withClaim .intact false (inMode .halted base) with rs := { phase := 3, intervalCount := 0xFFFF } }
    t.claims = [] ∧ t.rs.intervalCount = 0 ∧
      t.exq.queue = [{ body := .claimExpired 0 0 0, stamp := 0 }] := by decide

theorem test_phaseEventAccrues :
    let t := after .phaseEvent (withTxn (.uni (uni (.renew []) .transmitting 3 0)) base)
    t.rs.phase = 1 ∧ (t.node 0).debt = 1 := by decide

theorem test_testAnswers :
    lastAnswer (after (.test (frame 1 (testBody 0 2))) base) = some (.ok, [0x01]) ∧
      lastAnswer (after (.test (frame 1 (testBody 0 8))) base) = some (.badBit, []) := by decide

theorem test_setParameters :
    let t := after (.setParameters (frame 0 (paramsBody [(.highWatermark, 7), (.panicWatermark, 8)])))
      State.reset
    t.params.highWatermark = 7 ∧ t.params.panicWatermark = 8 ∧
      lastAnswer (after (.setParameters (frame 0 (paramsBody [(.highWatermark, 6)]))) State.reset) =
        some (.badParam, [0x04]) := by decide

theorem test_readStatus :
    lastAnswer (after (.readStatus (frame 0 (optionBody false))) State.reset) = some (.ok,
      [0x03, 0, 0, 0, 0xFF, 0xFF, 0xFF, 0xFF, 0, 0, 0, 0, 0, 0, 0, 0, 192, 0, 1, 0, 0, 0,
       0, 0, 0, 0, 0, 0, 0, 0, 0, 0]) := by decide

theorem test_nodeStatus :
    (lastAnswer (after (.nodeStatus (frame 0 (nodeBody 0))) base)).map (fun a => (a.1, a.2.length)) =
      some (.ok, 103) := by decide

theorem test_flush :
    let t := after (.flush (frame 0 []))
      (withForward [fwd (.read [0])] (withClaim .intact false (withStage .opened [one] none none base)))
    t.mode = .halted ∧ t.claims = [] ∧ t.pou.forward = [] ∧ t.poolFree = 192 ∧
      t.tp.queue.length = 2 := by decide +kernel

theorem test_fullResetRequest :
    let t := after (.fullReset (frame 0 [])) base
    t.tp.closing = true ∧ after .trunkFrameTransmitted t = t.fullReset := by decide

theorem test_resetPin :
    let t := after .resetAsserted base
    t = { State.reset with resetLow := true } ∧ after (.readStatus (frame 0 [0])) t = t ∧
      after .resetReleased t = State.reset ∧ after .powerOn base = State.reset := by decide

theorem test_trunkFrames :
    (after (.trunkCrcFailure [1, 2, 3] false) base).counters.trunkCrcErrors = 1 ∧
      lastAnswer (after (.unknownKindFrame 0x7F (frame 0 [])) base) = some (.malformed, []) := by
  decide

theorem test_tick :
    step { State.reset with rs := { quarterLeft := 2 } } =
      .next { State.reset with rs := { quarterLeft := 1 }, dbc := { idleTimer := 1 } } := by rfl


/-! ## The hypotheses of the statements are met

Each `witness_<statement>` gives concrete states and operands that meet the statement's hypotheses together, one
conjunct per clause, at the boundary of its range where it has one. -/

theorem witness_TimeOnAnEmptyQueue :
    let s : State := { base with rs := { quarterLeft := 2 } }
    let low : State := { s with resetLow := true }
    let t : Nat → State := fun k => { s with dbc := { idleTimer := k } }
    let w : Nat → State := fun k => withTxn (.uni (uni (.renew []) .awaiting 7 k)) s
    (low.pending = [] ∧ low.resetLow = true) ∧
    (∀ k ∈ [0, 18, 20, 254, 255], (t k).pending = [] ∧ (t k).resetLow = false ∧ 2 ≤ (t k).rs.quarterLeft ∧
      (t k).dbc.txn = none ∧ (t k).dbc.idleTimer + 1 ≠ (t k).params.idleWindow) ∧
    (∀ k ∈ [1, 2, 1280], (w k).pending = [] ∧ (w k).resetLow = false ∧ 2 ≤ (w k).rs.quarterLeft ∧
      (w k).dbc.txn = some (.uni (uni (.renew []) .awaiting 7 k))) := by decide

/-- A unicast and a broadcast frame being transmitted; the quarter at its end, alone, with the idle timer one short of
the idle window, and with the reply window at its end or not. -/
theorem witness_TimeOnAnEmptyQueue_timers :
    let s : Nat → Nat → State := fun q k => { base with rs := { quarterLeft := q }, dbc := { idleTimer := k } }
    let x : Nat → Txn → State := fun q x => withTxn x (s q 0)
    let u : TxnCond → Nat → UniTxn := fun c k => uni (.renew []) c 7 k
    (∀ y ∈ [Txn.uni (u .transmitting 0), .broad (.take 1)], (x 2 y).pending = [] ∧ (x 2 y).resetLow = false ∧
      2 ≤ (x 2 y).rs.quarterLeft ∧ (x 2 y).dbc.txn = some y) ∧ (u .transmitting 0).cond = .transmitting ∧
    (∀ k ∈ [18, 20, 255], (s 1 k).dbc.txn = none ∧ (s 1 k).rs.quarterLeft ≤ 1 ∧
      (s 1 k).dbc.idleTimer + 1 ≠ (s 1 k).params.idleWindow) ∧
    (∀ q ∈ [0, 1, 2], (s q 19).pending = [] ∧ (s q 19).resetLow = false ∧ (s q 19).dbc.txn = none ∧
      (s q 19).dbc.idleTimer + 1 = (s q 19).params.idleWindow) ∧
    (∀ k ∈ [1, 2], (x 1 (.uni (u .awaiting k))).rs.quarterLeft ≤ 1 ∧
      (x 1 (.uni (u .awaiting k))).dbc.txn = some (.uni (u .awaiting k))) ∧
    (x 1 (.broad (.abandon 1))).rs.quarterLeft ≤ 1 := by decide

/-- Each command in a state in which its event cannot take place. -/
theorem witness_EveryCommandAnswersANextState :
    (base.dbc.txn = none ∧ base.rs.phase ≠ 3 ∧ base.resetLow = false ∧ base.tp.queue = [] ∧
      base.tp.closing = false) ∧
    (let u := uni (.read [0]) .transmitting 7 0
     (withTxn (.uni u) base).dbc.txn = some (.uni u) ∧ u.cond ≠ .awaiting) ∧
    (let u := uni (.read [0]) .awaiting 7 1
     (withTxn (.uni u) base).dbc.txn = some (.uni u) ∧ u.cond ≠ .transmitting) ∧
    (withTxn (.broad (.abandon 0)) base).dbc.txn ≠ some (.broad (.take 0)) ∧
    (withTxn (.broad (.abandon 1)) base).dbc.txn ≠ some (.broad (.abandon 0)) ∧
    (2 ≤ (withFrames 2 true base).tp.queue.length ∧ (withFrames 2 true base).tp.closing = true) := by decide

/-- A frame that the TP reads and a kind that has a row; kinds with the rows whose marks may change. -/
theorem witness_EveryCommandAnswersANextState_kinds :
    (let f := trunkFrameBytes 0x2E (frame 0 [0])
     ReqKind.ofCode? 0x2E = some .readCounters ∧ checkGood f = true ∧
       readTrunkFrame f = some (0x2E, frame 0 [0])) ∧
    (Instr.write (frame 1 [])).frameKind? = some .write ∧ Instr.drainEnd.frameKind? = none ∧
    (Instr.unknownKindFrame 0x20 (frame 0 [])).frameKind? = some .configureNode := by decide

theorem witness_ResetsAndTheResetPin :
    ({ base with resetLow := true } : State).resetLow = true ∧
    (let s := withFrames 1 true base
     s.resetLow = false ∧ s.tp.closing = true ∧ s.tp.queue.length = 1) ∧
    (Instr.write (frame 1 []) ≠ .powerOn ∧ Instr.write (frame 1 []) ≠ .resetAsserted ∧
      Instr.write (frame 1 []) ≠ .resetReleased) := by decide

theorem witness_TransmitQueueTraffic :
    (withFrames 32 true base).tp.closing = true ∧
    (∀ k ∈ [0, 23, 31], (withFrames k false base).tp.closing = false ∧
      (withFrames k false base).tp.queue.length < 32) ∧
    ((withFrames 32 false base).tp.closing = false ∧ 32 ≤ (withFrames 32 false base).tp.queue.length) ∧
    (∀ k ∈ [0, 16, 31], ∀ c ∈ [false, true], c = false ∨ k ≠ 0 →
      let s := withFrames (k + 1) c base
      s.resetLow = false ∧ s.tp.queue = filler :: List.replicate k filler ∧
        (s.tp.closing = false ∨ List.replicate k filler ≠ [])) := by decide

theorem witness_RecordsAndCounters :
    (∀ k ∈ [0, 31], (withRecords k base).exq.queue.length < 32) ∧
    32 ≤ (withRecords 32 base).exq.queue.length := by decide

/-- A bus in use; no drain to end and nobody new waiting; a bus just FREE with a node at PANIC. -/
theorem witness_EndOfAnEvent :
    (withTxn (.broad (.take 1)) base).dbc.txn.isSome = true ∧
    (base.drained = false ∧ base.dbc.txn = none ∧ beginsToWait base base = false) ∧
    (base.dbc.txn = none ∧ (base.fwdWaits || base.cmtWaits || base.rnwWaits) = true ∧
      (withTxn (.broad (.take 1)) base).dbc.txn.isSome = true) ∧
    (base.dbc.txn = none ∧ beginsToWait State.reset base = true) ∧
    (State.reset.dbc.txn = none ∧
      (State.reset.fwdWaits || State.reset.cmtWaits || State.reset.rnwWaits) = false) := by decide

/-- The drain that an event's end brings, and one of its conditions open. -/
theorem witness_EndOfAnEvent_drain :
    let d := inMode .draining State.reset
    (d.mode = .draining ∧ d.ce.commit = none ∧ d.ce.clearOwed = false ∧ d.dbc.txn = none ∧
      d.fwdWaits = false ∧ d.cmtWaits = false ∧ d.rnwWaits = false) ∧
    ({ d with ce := { clearOwed := true } } : State).ce.clearOwed = true := by decide

theorem witness_FramesTheTrunkPortAnswersItself :
    base.takesFrames = true ∧ ([1, 2, 3, 4, 5] : List Byte).length < 6 ∧
    (let f : List Byte := [0, 0, 0x2E, 0, 0, 0]
     f.drop (f.length - 2) ≠ wordBytes (crc16 (f.take (f.length - 2)))) ∧
    ReqKind.ofCode? 0x7F = none ∧ ReqKind.ofCode? 0x09 = none ∧
    (∀ d ∈ [(49 : BitVec 6), 63], 49 ≤ (frame d []).destination.toNat) ∧
    (withFrames 1 true base).tp.closing = true := by decide

/-- Destinations 0 and 49 and a short body for the node kinds; destination 1 and bad bodies for the others; a mode,
a node state and a point that refuse. -/
theorem witness_RefusedBeforeTheEffect :
    base.takesFrames = true ∧
    (∀ d ∈ [(0 : BitVec 6), 49], NodeIdx.ofAddr? (frame d []).destination.toNat = none) ∧
    (let rq := frame 1 [17]
     rq.sizedBody.bind readItemsBody = none ∧ rq.sizedBody.bind readModifyBody = none ∧
       rq.sizedBody.bind readPointsBody = none ∧ rq.sizedBody.bind readItemBody = none ∧
       rq.sizedBody.bind readTestBody = none ∧ rq.sizedBody.bind readPointBody = none) ∧
    (let rq := frame 0 [0xFF]
     rq.sizedBody.bind readEmptyBody = none ∧ rq.sizedBody.bind readConfigureBody = none ∧
       rq.sizedBody.bind readNodeBody = none ∧ rq.sizedBody.bind readParamsBody = none ∧
       rq.sizedBody.bind readModeBody = none ∧ rq.sizedBody.bind readOptionBody = none ∧
       rq.sizedBody.bind readNumberBody = none ∧ rq.sizedBody.bind readMaskBody = none) ∧
    (frame 1 []).destination.toNat ≠ 0 ∧ ReqKind.commit.nodeKind = false ∧
    (inMode .draining base).mode ≠ .run ∧ (inMode .halted base).mode ≠ .run ∧
    ((base.node 47).state = .absent ∧ (base.node 1).state = .parked) ∧
    ((base.node 0).state.inService = true ∧ (base.point 0 15).width = none ∧
      (base.point 1 15).width = none) := by decide

/-- Bodies that do not read: a count of 0 and of 17, a point named twice, a byte too many, a width of 0, a mask
above 31. -/
theorem test_bodiesThatDoNotRead :
    readItemsBody [0] = none ∧ readItemsBody (itemsBody (List.replicate 17 ⟨0, 1⟩)) = none ∧
    readPointsBody [2, 3, 3] = none ∧ readTestBody [0, 1, 2] = none ∧
    readConfigureBody [1, 1, 0, 0, 0] = none ∧ readNodeBody [49] = none ∧ readMaskBody [32] = none := by decide

/-- For each of the four forwarded kinds and the four others, a frame that names a declared and an undeclared
point. -/
theorem witness_RefusedBeforeTheEffect_frames :
    ForNode readItemsBody (frame 1 (itemsBody [⟨0, 1⟩, ⟨15, 1⟩])) 0 [⟨0, 1⟩, ⟨15, 1⟩] ∧
    ForNode readModifyBody (frame 1 (modifyBody 15 .set 0)) 0 (15, .set, 0) ∧
    ForNode readPointsBody (frame 1 (pointsBody [0, 15])) 0 [0, 15] ∧
    ForNode readItemBody (frame 1 (itemBody ⟨15, 1⟩)) 0 ⟨15, 1⟩ ∧
    ForNode readTestBody (frame 1 (testBody 15 0)) 0 (15, 0) ∧
    ForNode readPointBody (frame 1 (pointBody 15)) 0 15 := by unfold ForNode; decide

/-- Originator 3 outside the manager set, and a body of each kind that reads. -/
theorem witness_ManagementNeedsTheManagerSet :
    (let s : State := { base with params := { managerSet := 7 } }
     s.takesFrames = true ∧ s.params.managerSet.getLsbD (frame 0 [] 3).originator.val = false) ∧
    (frame 0 [] 3).destination.toNat = 0 ∧ (frame 0 [] 3).sizedBody = some [] ∧
    (readConfigureBody (configureBody 47 [⟨15, 16, true⟩])).isSome = true ∧
    (readNodeBody (nodeBody 0)).isSome = true ∧ (readNodeBody (nodeBody 47)).isSome = true ∧
    (readParamsBody (paramsBody [(.wakeDebits, 3)])).isSome = true ∧
    (readModeBody (modeBody .run)).isSome = true ∧ (readOptionBody (optionBody true)).isSome = true ∧
    (readNumberBody (numberBody 8)).isSome = true ∧ (readMaskBody (maskBody 31)).isSome = true := by
  decide

/-- Two values at the top of their widths, with room, with 8 entries of the sender, and with 16 entries. -/
theorem witness_WriteAtArrival :
    let its : List Item := [⟨0, 255⟩, ⟨1, 0xFFFF⟩]
    let rq := frame 1 (itemsBody its)
    let es : Nat → Originator → List FwdEntry := fun k o =>
      List.replicate k { fwd (.read [0]) with originator := o }
    base.takesFrames = true ∧ ForNode readItemsBody rq 0 its ∧
      Forwardable base 0 (its.map Item.point) ∧ Fits base 0 its ∧
      (withForward (es 7 0 ++ es 8 1) base).forwardFull 0 = false ∧
      (withForward (es 8 0) base).forwardFull 0 = true ∧
      (withForward (es 8 1 ++ es 8 2) base).forwardFull 0 = true := by
  refine ⟨by decide, ?_, ?_, fits_of_find (by decide), by decide, by decide,
    by decide⟩
  · unfold ForNode; decide
  · unfold Forwardable; decide

/-- The second of two values one above its width, under either potency. -/
theorem witness_WriteAtArrival_overrange :
    let its : List Item := [⟨1, 0xFFFF⟩, ⟨0, 256⟩]
    let rq := frame 1 (itemsBody its)
    let soft : State := { base with params := { overrangePotency := .impotent } }
    ForNode readItemsBody rq 0 its ∧ Forwardable base 0 (its.map Item.point) ∧
      Forwardable soft 0 (its.map Item.point) ∧
      its.find? (itemExceeds (base.node 0)) = some ⟨0, 256⟩ ∧
      its.find? (itemExceeds (soft.node 0)) = some ⟨0, 256⟩ ∧
      base.params.overrangePotency = .potent ∧ soft.params.overrangePotency = .impotent ∧
      soft.forwardFull 0 = false ∧
      (withForward (List.replicate 8 (fwd (.read [0]))) soft).forwardFull 0 = true := by
  unfold ForNode Forwardable; decide

/-- Bits 7 and 8 of a point of width 8; one READ point and all declared ones. -/
theorem witness_ModifyAndReadAtArrival :
    base.takesFrames = true ∧ ForNode readModifyBody (frame 1 (modifyBody 0 .reverse 7)) 0 (0, .reverse, 7) ∧
    ForNode readModifyBody (frame 1 (modifyBody 0 .set 8)) 0 (0, .set, 8) ∧
    (base.point 0 0).width = some 8 ∧ Forwardable base 0 [0] ∧
    ForNode readPointsBody (frame 1 (pointsBody [0, 1, 2])) 0 [0, 1, 2] ∧ Forwardable base 0 [0, 1, 2] ∧
    base.forwardFull 0 = false ∧
    (withForward (List.replicate 8 (fwd (.read [0]))) base).forwardFull 0 = true := by
  unfold ForNode Forwardable; decide

theorem witness_ReleaseAtArrival :
    let it : Item := ⟨0, 255⟩
    let s := withClaim .broken true base
    let busy := withForward (List.replicate 8 (fwd (.read [0]))) s
    s.takesFrames = true ∧ ForNode readItemBody (frame 1 (itemBody it)) 0 it ∧ Forwardable s 0 [it.point] ∧
      Forwardable busy 0 [it.point] ∧ Fits base 0 [it] ∧ Fits s 0 [it] ∧ Fits busy 0 [it] ∧
      base.claimOf 0 0 0 = none ∧ s.claimOf 1 0 0 = none ∧
      (s.claimOf 0 0 0).isSome = true ∧ s.forwardFull 0 = false ∧ busy.forwardFull 0 = true := by
  refine ⟨by decide, ?_, ?_, ?_, fits_of_find (by decide),
    fits_of_find (by decide), fits_of_find (by decide), by decide⟩
  · unfold ForNode; decide
  · unfold Forwardable; decide
  · unfold Forwardable; decide

theorem witness_ReleaseAtArrival_overrange :
    let it : Item := ⟨0, 256⟩
    let soft : State := { withClaim .intact false base with params := { overrangePotency := .impotent } }
    ForNode readItemBody (frame 1 (itemBody it)) 0 it ∧ Forwardable soft 0 [it.point] ∧
      (soft.point 0 it.point).width = some 8 ∧ 2 ^ 8 ≤ it.value.toNat ∧
      base.params.overrangePotency = .potent ∧ soft.params.overrangePotency = .impotent ∧
      soft.claimOf 1 0 0 = none ∧ (soft.claimOf 0 0 0).isSome = true ∧ soft.forwardFull 0 = false ∧
      (withForward (List.replicate 8 (fwd (.read [0]))) soft).forwardFull 0 = true := by
  unfold ForNode Forwardable; decide

/-- In HALTED, of a PARKED node: bit 8 of width 8, bit 7 of a set point, bit 15 of an UNSET one. -/
theorem witness_TestAnswersFromTheShadow :
    let s := inMode .halted base
    s.takesFrames = true ∧ (s.node 1).state ≠ .absent ∧
    ForNode readTestBody (frame 2 (testBody 0 8)) 1 (0, 8) ∧
    ForNode readTestBody (frame 2 (testBody 0 7)) 1 (0, 7) ∧
    ForNode readTestBody (frame 2 (testBody 1 15)) 1 (1, 15) ∧
    (s.point 1 0).width = some 8 ∧ (s.point 1 0).active = some 5 ∧
    (s.point 1 1).width = some 16 ∧ (s.point 1 1).active = none := by
  unfold ForNode; decide

/-- Another holder, the sender's own record, a full table and an empty one; a releasing record and one that is not;
an UNCLAIM at a PARKED node. -/
theorem witness_ClaimAndUnclaim :
    base.takesFrames = true ∧ ForNode readPointBody (frame 1 (pointBody 0) 1) 0 0 ∧
    (base.node 0).state.inService = true ∧ (base.node 1).state ≠ .absent ∧
    (base.point 0 0).width.isSome = true ∧
    (∃ c, (withClaim .broken true base).claimOn 0 0 = some c ∧ c.originator ≠ (1 : Originator)) ∧
    (∃ c, (withClaim .broken true base).claimOn 0 0 = some c ∧ c.originator = (0 : Originator)) ∧
    ((withEightClaims base).claimOn 0 0 = none ∧ 8 ≤ (withEightClaims base).claims.length) ∧
    (base.claimOn 0 0 = none ∧ base.claims.length < 8) ∧
    (withClaim .broken true base).claimOf 1 0 0 = none ∧
    (∃ c, (withClaim .intact true base).claimOf 0 0 0 = some c ∧ c.releasing = true) ∧
    (∃ c, (withClaim .intact false base).claimOf 0 0 0 = some c ∧ c.releasing = false) := by
  refine ⟨by decide, ?_, by decide, by decide, by decide,
    ⟨_, rfl, by decide⟩, ⟨_, rfl, rfl⟩, by decide, by decide, by decide,
    ⟨_, rfl, rfl⟩, ⟨_, rfl, rfl⟩⟩
  unfold ForNode; decide

theorem witness_ValueSettingEventBreaksTheClaim :
    (∃ c, (withClaim .intact false base).claimOn 0 0 = some c ∧ c.state = .intact) ∧
    (withRecords 31 (withClaim .intact false base)).exq.queue.length < 32 ∧
    base.claimOn 0 0 = none ∧
    (∃ c, (withClaim .broken false base).claimOn 0 0 = some c ∧ c.state = .broken) :=
  ⟨⟨_, rfl, rfl⟩, by decide, rfl, ⟨_, rfl, rfl⟩⟩

/-- A QUEUED stage, a full stage, a pool with one entry left, and an OPEN stage with the same point. -/
theorem witness_StageIsDecided :
    let its : List Item := [⟨0, 255⟩, ⟨1, 0xFFFF⟩]
    let fresh : State → List Item := fun s =>
      its.filter fun it => !((s.stage 0).entries.any fun e => e.node == 0 && e.point == it.point)
    let low := ((base.setStage 1 { state := .opened, entries := full64 }).setStage 2
      { state := .opened, entries := full64 }).setStage 3
      { state := .opened, entries := full64.drop 1 }
    base.takesFrames = true ∧ ForNode readItemsBody (frame 1 (itemsBody its)) 0 its ∧
    (base.node 0).state ≠ .absent ∧ (∀ it ∈ its, (base.point 0 it.point).width.isSome = true) ∧
    Fits base 0 its ∧
    ((withStage .queued [one] (some 1) none base).stage 0).state = .queued ∧
    (let s := withStage .opened (full64.drop 1) none none base
     (s.stage 0).state = .opened ∧ 64 < (s.stage 0).entries.length + (fresh s).length) ∧
    ((low.stage 0).state = .closed ∧ (low.stage 0).entries.length + (fresh low).length ≤ 64 ∧
      low.poolFree < (fresh low).length) ∧
    (let s := withStage .opened (one :: full64.drop 2) none none base
     (s.stage 0).state = .opened ∧ (s.stage 0).entries.length + (fresh s).length ≤ 64 ∧
       (fresh s).length ≤ s.poolFree) := by
  refine ⟨by decide, ?_, by decide, by decide, fits_of_find (by decide),
    by decide⟩
  unfold ForNode; decide

theorem witness_StageIsDecided_overrange :
    let its : List Item := [⟨0, 256⟩]
    let soft : State := { base with params := { overrangePotency := .impotent } }
    ForNode readItemsBody (frame 2 (itemsBody its)) 1 its ∧ (soft.node 1).state ≠ .absent ∧
    (∀ it ∈ its, (soft.point 1 it.point).width.isSome = true) ∧
    its.find? (itemExceeds (soft.node 1)) = some ⟨0, 256⟩ ∧
    base.params.overrangePotency = .potent ∧ soft.params.overrangePotency = .impotent ∧
    ((withStage .committing [one] (some 1) (some 2) soft).stage 0).state = .committing ∧
    (soft.stage 0).state = .closed ∧ (soft.stage 0).entries.length + 1 ≤ 64 ∧ 1 ≤ soft.poolFree ∧
    64 < ((withStage .opened full64 none none soft).stage 0).entries.length + 1 ∧
    (let full := ((soft.setStage 1 { entries := full64 }).setStage 2
       { entries := full64 }).setStage 3 { entries := full64 }
     full.poolFree < 1) := by
  unfold ForNode; decide

theorem witness_CommitIsDecided :
    base.takesFrames = true ∧ ForPart readEmptyBody (frame 0 []) () ∧
    (inMode .draining base).mode ≠ .run ∧ base.mode = .run ∧ (base.stage 0).state = .closed ∧
    ((withStage .queued [one] (some 1) none base).stage 0).state = .queued ∧
    ((withStage .committing [one] (some 1) (some 2) base).stage 0).state = .committing ∧
    ((withStage .opened [one] none none base).stage 0).state = .opened := by
  unfold ForPart; decide

/-- The tag at 255, and each of the three conditions that keep the CE from taking a stage. -/
theorem witness_CommitIsTaken :
    (let s : State := { withStage .queued [one] (some 1) none base with ce := { queue := [0], nextTag := 255 } }
     s.resetLow = false ∧ s.ce.commit = none ∧ s.ce.clearOwed = false ∧ s.ce.queue = [0]) ∧
    (withCommit .loading [] base).ce.commit.isSome = true ∧
    ({ base with ce := { clearOwed := true } } : State).ce.clearOwed = true ∧ base.ce.queue = [] := by
  decide

theorem witness_DiscardIsDecided :
    base.takesFrames = true ∧ ForPart readEmptyBody (frame 0 []) () ∧
    (base.stage 0).state = .closed ∧
    ((withStage .opened full64 none none base).stage 0).state = .opened ∧
    (let s := withStage .queued [one] (some 255) none base
     (s.stage 0).state = .queued ∧ (s.stage 0).request = some 255) ∧
    ((withStage .committing [one] (some 1) (some 2) base).stage 0).state = .committing := by
  unfold ForPart; decide

/-- CONFIGURE NODE of a node in service and of an ABSENT one; REMOVE NODE of a LIVE one, of a PARKED one that is in
use, and of a PARKED one that is not. -/
theorem witness_NodesConfiguredAndRemoved :
    Managed readConfigureBody (frame 0 (configureBody 0 [⟨0, 1, false⟩])) (0, [⟨0, 1, false⟩]) base ∧
    (base.node 0).state ≠ .absent ∧
    Managed readConfigureBody (frame 0 (configureBody 47 [⟨15, 16, true⟩])) (47, [⟨15, 16, true⟩]) base ∧
    (base.node 47).state = .absent ∧
    Managed readNodeBody (frame 0 (nodeBody 0)) 0 base ∧ (base.node 0).state ≠ .parked ∧
    Managed readNodeBody (frame 0 (nodeBody 1)) 1 base ∧ (base.node 1).state = .parked ∧
    base.inUse 1 = false ∧ (withForward [{ fwd (.read [0]) with node := 1 }] base).inUse 1 = true := by
  unfold Managed ForPart; decide

theorem witness_ParkAndUnpark :
    (∀ n ∈ [(0 : NodeIdx), 1, 2, 3, 47], Managed readNodeBody (frame 0 (nodeBody n)) n base) ∧
    (base.node 47).state = .absent ∧ (base.node 1).state = .parked ∧
    (base.node 0).state.inService = true ∧ (base.node 2).state.inService = true ∧
    (base.node 3).state.inService = true ∧ (base.node 0).state ≠ .parked := by
  unfold Managed ForPart; decide

/-- The bodies of the management requests whose statements ask no more than that they are managed. -/
theorem witness_Readings :
    Managed readEmptyBody (frame 0 []) () base ∧ Managed readNodeBody (frame 0 (nodeBody 47)) 47 base ∧
    Managed readOptionBody (frame 0 (optionBody false)) false base ∧
    Managed readOptionBody (frame 0 (optionBody true)) true base ∧
    (∀ k ∈ [1, 8], Managed readNumberBody (frame 0 (numberBody k)) k (withRecords 7 base)) ∧
    (∀ m ∈ [(0 : BitVec 5), 31], Managed readMaskBody (frame 0 (maskBody m)) m base) := by
  unfold Managed ForPart; decide

/-- A value out of range after one in range, and watermarks that would be equal. -/
theorem witness_SetParametersIsDecided_range :
    let bad : List (ParamId × Byte) := [(.idleWindow, 255), (.wakeDebits, 4)]
    let cross : List (ParamId × Byte) := [(.highWatermark, 6)]
    Managed readParamsBody (frame 0 (paramsBody bad)) bad base ∧
    bad.find? (fun i => !i.1.inRange i.2) = some (.wakeDebits, 4) ∧
    Managed readParamsBody (frame 0 (paramsBody cross)) cross base ∧
    (∀ i ∈ cross, i.1.inRange i.2 = true) ∧
    (base.params.setAll cross).panicWatermark ≤ (base.params.setAll cross).highWatermark := by
  unfold Managed ForPart; decide

/-- Watermarks one apart, in RUN and in HALTED; and parameters that any mode may change. -/
theorem witness_SetParametersIsDecided_mode :
    let good : List (ParamId × Byte) := [(.arbMode, 2), (.highWatermark, 5)]
    let free : List (ParamId × Byte) := [(.idleWindow, 0), (.managerSet, 15)]
    (∀ m ∈ [Mode.run, .halted],
      Managed readParamsBody (frame 0 (paramsBody good)) good (inMode m base)) ∧
    (∀ i ∈ good, i.1.inRange i.2 = true) ∧
    (base.params.setAll good).highWatermark < (base.params.setAll good).panicWatermark ∧
    base.mode ≠ .halted ∧ good.find? (fun i => i.1.haltedOnly) = some (.highWatermark, 5) ∧
    Managed readParamsBody (frame 0 (paramsBody free)) free base ∧
    (∀ i ∈ free, i.1.inRange i.2 = true) ∧ (∀ i ∈ free, i.1.haltedOnly = false) ∧
    (base.params.setAll free).highWatermark < (base.params.setAll free).panicWatermark ∧
    (free.map Prod.fst).Nodup := by
  unfold Managed ForPart
  refine ⟨by decide, by decide, by decide, by decide, by decide, by decide, by decide, by decide, by decide,
    by decide⟩

theorem witness_SetModeIsDecided :
    (∀ m ∈ [Mode.run, .draining, .halted],
      Managed readModeBody (frame 0 (modeBody .run)) .run (inMode m base) ∧
        Managed readModeBody (frame 0 (modeBody .drain)) .drain (inMode m base) ∧
        (inMode m base).mode = m) := by
  unfold Managed ForPart; decide

/-- Two queued stages and forward-queue entries that just fit the transmit queue. -/
theorem witness_DrainingEntry :
    let s := withForward (List.replicate 7 (fwd (.read [0]))) (withFrames 23 false
      { (withStage .queued [one] (some 9) none base).setStage 3
          { state := .queued, entries := [one], life := some 1, request := some 8 } with
        ce := { queue := [3, 0] } })
    s.ce.queue.Nodup ∧ s.tp.closing = false ∧
      s.tp.queue.length + s.pou.forward.length + s.ce.queue.length ≤ 32 ∧
      ∀ o ∈ s.ce.queue, (s.stage o).request.isSome = true := by decide

/-- A commit in flight, a queued stage and an OPEN one: a legal Stage Store. -/
theorem witness_FlushEmptiesTheWork :
    let s : State :=
      { ((withCommit .loading [] base).setStage 1
          { state := .queued, entries := [one], life := some 1, request := some 8 }).setStage 2
          { state := .opened, entries := [one], life := some 255 } with
        ce := { queue := [1], commit := some (commitOf .loading []), nextTag := 255 } }
    Managed readEmptyBody (frame 0 []) () s ∧ StageStoreLegal s ∧ s.tp.closing = false := by
  unfold Managed ForPart StageStoreLegal Stage.Legal; decide

/-- The three modes, with the bus FREE and not. -/
theorem witness_FlushEmptiesTheWork_modes :
    (∀ m ∈ [Mode.run, .draining, .halted],
      Managed readEmptyBody (frame 0 []) () (inMode m base) ∧ (inMode m base).mode = m) ∧
    (base.ce.clearOwed = false ∧ base.dbc.txn = none) ∧
    Managed readEmptyBody (frame 0 []) () (withTxn (.broad (.take 1)) base) ∧
    (withTxn (.broad (.take 1)) base).dbc.txn ≠ none := by
  unfold Managed ForPart; decide

/-- What a FLUSH answers: the forwarded request, then the commit in flight, then the queued stage. -/
theorem test_flushAnswers :
    let s : State := withForward [{ fwd (.read [0]) with originator := 2, tag := 4 }]
      { (withCommit .loading [] base).setStage 1
          { state := .queued, entries := [one], life := some 1, request := some 8 } with
        ce := { queue := [1], commit := some (commitOf .loading []) } }
    s.flushWork.tp.queue =
      [.response { originator := 2, tag := 4, kind := 0x03, status := .aborted },
       .response { originator := 0, tag := 7, kind := 0x10, status := .aborted },
       .response { originator := 1, tag := 8, kind := 0x10, status := .aborted }] := by decide

theorem witness_DrainEnds :
    let d := inMode .draining base
    (d.resetLow = false ∧ d.mode = .draining ∧ d.ce.commit = none ∧ d.ce.clearOwed = false ∧
      d.dbc.txn = none) ∧
    base.mode ≠ .draining ∧ (withCommit .taking [0] d).ce.commit.isSome = true ∧
    ({ d with ce := { clearOwed := true } } : State).ce.clearOwed = true ∧
    (withTxn (.broad (.take 1)) d).dbc.txn.isSome = true := by decide

theorem witness_FullResetRequestClosesTheTrunkPort :
    (∀ k ∈ [0, 23, 31], Managed readEmptyBody (frame 0 []) () (withFrames k false base) ∧
      (withFrames k false base).tp.queue.length < 32) ∧
    Managed readEmptyBody (frame 0 []) () (withFrames 32 false base) ∧
    32 ≤ (withFrames 32 false base).tp.queue.length := by
  unfold Managed ForPart; decide

/-- HALTED; a node at PANIC; RNW at LOW alone, with the idle window elapsed and one unit short of it. -/
theorem witness_ArbiterWinner :
    let low : Nat → State := fun k =>
      { (base.setNode 3 {}).setNode 0 (entry .live 1 0) with dbc := { idleTimer := k } }
    let quiet : Nat → State := fun k => (low k).setNode 2 {}
    (inMode .halted base).mode = .halted ∧
    (base.dbc.txn = none ∧ base.mode ≠ .halted ∧ base.rnwAt .panic = true) ∧
    (let s := withForward [fwd (.read [0])] (quiet 0)
     s.dbc.txn = none ∧ s.rnwAt .panic = false ∧ s.choose = some .fwd) ∧
    ((quiet 20).rnwAt .panic = false ∧ (quiet 20).choose = none ∧ (quiet 20).rnwAt .low = true ∧
      (quiet 20).params.idleWindow ≤ (quiet 20).dbc.idleTimer) ∧
    ((quiet 19).choose = none ∧ (quiet 19).dbc.idleTimer < (quiet 19).params.idleWindow) ∧
    (State.reset.choose = none ∧ State.reset.rnwAt .low = false) ∧
    (∀ m ∈ [ArbMode.fixed, .rotate, .lead],
      ({ base with params := { arbMode := m } } : State).params.arbMode = m) := by decide

/-- No winner; a winner whose grant is used; a winner whose grant is not, its node not in service. -/
theorem witness_ArbiterDecisionIsTaken :
    let idle := (base.setNode 2 {}).setNode 3 {}
    let gone := withForward [{ fwd (.read [0]) with node := 1 }] idle
    (idle.resetLow = false ∧ idle.winner = none ∧ idle.dbc.txn = none) ∧
    (base.winner = some (.rnw, .panic) ∧ (base.decideGrant .rnw .panic).2 = true) ∧
    (gone.winner = some (.fwd, .shared) ∧ (gone.decideGrant .fwd .shared).2 = false) ∧
    (let t := withTxn (.broad (.take 1)) base
     t.resetLow = false ∧ t.dbc.txn.isSome = true) := by decide

theorem witness_RenewGrantAndOutcome :
    (∃ o : Offer, base.candidate = some o) ∧ (base.node 0).state.inService = true ∧
    (base.node 1).state.inService = false := by
  refine ⟨⟨⟨3, .panic, 8⟩, ?_⟩, ?_⟩ <;> decide

/-- A WRITE of points without a pending value, and one whose second point has one, under either potency; one to a
node not in service. -/
theorem witness_WriteGrant :
    let e := fwd (.write [⟨0, 1⟩, ⟨2, 1⟩])
    let s := withForward [e] base
    let soft : State := { s with params := { conflictPotency := .impotent } }
    let hit : State → FwdEntry → List Item → Option PointIdx := fun s e its =>
      (its.map Item.point).find? fun p => (s.point e.node p).pending.isSome
    (s.pou.forward = e :: [] ∧ e.op = .write [⟨0, 1⟩, ⟨2, 1⟩]) ∧
    (s.node e.node).state.inService = true ∧ hit s e [⟨0, 1⟩, ⟨2, 1⟩] = some 2 ∧
    s.params.conflictPotency = .potent ∧
    hit soft e [⟨0, 1⟩, ⟨2, 1⟩] = some 2 ∧ soft.params.conflictPotency = .impotent ∧
    hit s e [⟨0, 1⟩] = none ∧ (s.node 1).state.inService = false := by decide

/-- A READ; a MODIFY of an UNSET point, of a set one, and of one with a pending value. -/
theorem witness_ModifyAndReadGrant :
    (let s := withForward [fwd (.read [0])] base
     s.pou.forward = [fwd (.read [0])] ∧ (s.node 0).state.inService = true) ∧
    (let s := withForward [{ fwd (.read [0]) with node := 1 }] base
     (s.node 1).state.inService = false) ∧
    (base.point 0 1).active = none ∧
    ((base.point 0 0).active = some 5 ∧ (base.point 0 0).pending = none) ∧
    ((base.point 0 2).active = some 3 ∧ (base.point 0 2).pending.isSome = true ∧
      base.params.conflictPotency = .potent) ∧
    ({ base with params := { conflictPotency := .impotent } } : State).params.conflictPotency =
      .impotent := by decide

theorem witness_ReleaseGrant :
    let e := fwd (.release ⟨0, 9⟩)
    let s : ClaimState → State := fun st => withForward [e] (withClaim st false base)
    ((s .intact).pou.forward = e :: [] ∧ (base.node e.node).state.inService = true) ∧
    (withForward [e] base).claimOf 0 0 0 = none ∧
    (∃ c, (s .intact).claimOf 0 0 0 = some c ∧ c.state = .intact) ∧
    (∃ c, (s .broken).claimOf 0 0 0 = some c ∧ c.state = .broken) ∧
    (s .broken).params.brokenPotency = .potent ∧
    ({ s .broken with params := { brokenPotency := .impotent } } : State).params.brokenPotency =
      .impotent :=
  ⟨by decide, rfl, ⟨_, rfl, rfl⟩, ⟨_, rfl, rfl⟩, rfl, rfl⟩

/-- Each phase of a commit and a CLEAR owed, with the bus FREE; a LOAD for a LIVE node, and for one that is not. -/
theorem witness_CommitTransactions :
    (withTxn (.broad (.take 1)) base).ceBusy = true ∧
    (let s : State := { base with ce := { clearOwed := true } }
     s.ceBusy = false ∧ s.ce.clearOwed = true) ∧
    (base.ceBusy = false ∧ base.ce.clearOwed = false ∧ base.ce.commit = none) ∧
    (∀ x ∈ [(CommitPhase.loading, ([] : List NodeIdx)), (.taking, [0]), (.abandoning 0 .noReply, [0])],
      let s := withCommit x.1 x.2 base
      s.ceBusy = false ∧ s.ce.clearOwed = false ∧ s.ce.commit = some (commitOf x.1 x.2) ∧
        (s.stage 0).tag = some 200) ∧
    (withCommit .loading [] base).cmtWork = some (.load (commitOf .loading []) 0 200) ∧
    ((withCommit .loading [] base).node 0).state = .live ∧
    (let s := (withCommit .loading [] base).setNode 0 (entry .silent 0 3)
     s.cmtWork = some (.load (commitOf .loading []) 0 200) ∧ (s.node 0).state ≠ .live ∧
       (s.node 0).state ≠ .lapsed) ∧
    (commitOf .taking [0]).loaded ≠ [] ∧ (commitOf .loading []).loaded = [] := by decide

theorem witness_ReplyWindow :
    (∀ w ∈ [0, 7],
      let u := uni (.read [0]) .transmitting w 0
      (withTxn (.uni u) base).resetLow = false ∧ (withTxn (.uni u) base).dbc.txn = some (.uni u) ∧
        u.cond = .transmitting ∧ u.window ≤ 7) ∧
    (let u := uni (.read [0]) .awaiting 7 1280
     (withTxn (.uni u) base).dbc.txn = some (.uni u) ∧ u.cond = .awaiting) := by decide

/-- A reply to a READ of one point, to a WRITE, REFUSED, from another node, and with a value too many. -/
theorem witness_ReplyTaken :
    let u := uni (.read [0]) .awaiting 3 5
    let w := uni (.write [⟨0, 1⟩]) .awaiting 3 5
    (withTxn (.uni u) base).resetLow = false ∧ (withTxn (.uni u) base).dbc.txn = some (.uni u) ∧
    u.cond = .awaiting ∧
    readReply 1 u.frame.readCount (replyBytes 0 true .dropped [0xFFFF]) =
      some (.accepted .dropped [0xFFFF]) ∧
    readReply 1 w.frame.readCount (replyBytes 0 true .relaxed []) = some (.accepted .relaxed []) ∧
    readReply 1 u.frame.readCount (replyBytes 0 false .tight []) = some (.refused .tight) ∧
    readReply 1 u.frame.readCount (replyBytes 1 true .tight [1]) = none ∧
    readReply 1 u.frame.readCount (replyBytes 0 true .tight [1, 2]) = none ∧
    (uni (.renew []) .awaiting 3 5).frame = .renew [] ∧
    (uni (.load 255 [⟨0, 1⟩]) .awaiting 3 5).frame = .load 255 [⟨0, 1⟩] := by decide

theorem witness_FrameWhileFree :
    base.resetLow = false ∧ base.dbc.txn = none ∧ base.drained = false := by decide

/-- The four kinds in hand. -/
theorem witness_PointOutcomes :
    let hand : FwdEntry → Option (Word × Bool) → State := fun e m =>
      { base with pou := { inHand := some { entry := e, modified := m } } }
    (hand (fwd (.write [⟨0, 1⟩])) none).pou.inHand = some { entry := fwd (.write [⟨0, 1⟩]) } ∧
    (hand (fwd (.modify 0 .set 1)) (some (7, true))).pou.inHand =
      some { entry := fwd (.modify 0 .set 1), modified := some (7, true) } ∧
    (fwd (.modify 0 .set 1)).op = .modify 0 .set 1 ∧ (fwd (.release ⟨0, 1⟩)).op = .release ⟨0, 1⟩ ∧
    (fwd (.read [0])).op = .read [0] ∧ (fwd (.write [⟨0, 1⟩])).op = .write [⟨0, 1⟩] := by decide

/-- A READ's mask at its first and last bit. -/
theorem test_maskOf :
    maskOf [true, false, true] = 5 ∧ maskOf (List.replicate 15 false ++ [true]) = 0x8000 := by decide

/-- The three states in service; silence counts 1 and 2; a PARKED node. -/
theorem witness_NodeHealthAtOutcomes :
    (∀ n ∈ [(0 : NodeIdx), 2, 3], (base.node n).state.inService = true) ∧
    (let s := base.setNode 0 (entry .lapsed 0 1)
     (s.node 0).state = .lapsed ∧ (s.node 0).silence + 1 ≠ 3) ∧
    ((base.node 0).state = .live ∧ (base.node 0).silence + 1 = 3) ∧
    (base.node 2).state = .silent ∧ (base.node 1).state = .parked := by decide

theorem witness_BroadcastEnds :
    (let s := withTxn (.broad (.take 200)) (withCommit .taking [0] base)
     s.resetLow = false ∧ s.dbc.txn = some (.broad (.take 200)) ∧
       s.ce.commit = some (commitOf .taking [0]) ∧ (s.stage 0).tag = some 200 ∧
       (s.stage 0).request = some 7) ∧
    (let s := withTxn (.broad (.abandon 200)) (withCommit (.abandoning 0 .nodeRefused) [0] base)
     (200 : Byte) ≠ 0 ∧ s.dbc.txn = some (.broad (.abandon 200)) ∧
       s.ce.commit = some (commitOf (.abandoning 0 .nodeRefused) [0]) ∧ (s.stage 0).tag = some 200) ∧
    (withTxn (.broad (.abandon 0)) base).dbc.txn = some (.broad (.abandon 0)) ∧
    (∀ f ∈ [BroadFrame.take 200, .abandon 200],
      let s := withTxn (.broad f) (inMode .draining base)
      s.resetLow = false ∧ s.ce.commit = none ∧ s.dbc.txn = some (.broad f)) := by decide

/-- LIVE nodes at the debts where the level changes, under the default watermarks 4 and 6. -/
theorem witness_RenewalLevels :
    let p : Params := {}
    p.highWatermark < p.panicWatermark ∧ 1 ≤ p.highWatermark ∧
    (entry .lapsed 0 0).state = .lapsed ∧ p.panicWatermark ≤ (entry .live 6 0).debt ∧
    (p.highWatermark ≤ (entry .live 5 0).debt ∧ (entry .live 5 0).debt < p.panicWatermark) ∧
    (1 ≤ (entry .live 3 0).debt ∧ (entry .live 3 0).debt < p.highWatermark) ∧
    (entry .live 0 0).debt = 0 ∧ (entry .silent 0 3).probe = 0 ∧
    ({ entry .silent 0 3 with probe := 1 } : NodeEntry).probe ≠ 0 ∧ (entry .parked 0 0).state = .parked := by
  decide

theorem witness_RenewalCandidate :
    State.reset.candidate = none ∧ (∃ o : Offer, base.candidate = some o) ∧
    levelOf base.params (base.node 2) = some .high := by
  refine ⟨by decide, ⟨⟨3, .panic, 8⟩, by decide⟩, by decide⟩

/-- Debt that stays at 8 and debt that would pass it, for a LIVE and a LAPSED node. -/
theorem witness_Accrual :
    ((entry .live 7 0).state = .live ∧ (entry .live 7 0).debt + 1 ≤ 8) ∧ 8 < (entry .live 8 0).debt + 1 ∧
    ((entry .lapsed 8 0).state = .lapsed ∧ 8 < (entry .lapsed 8 0).debt + 1) ∧
    (entry .silent 0 3).state = .silent ∧ (entry .absent 0 0).state = .absent := by decide

theorem witness_PhaseEvent :
    base.resetLow = false ∧ ({ base with rs := { phase := 3 } } : State).rs.phase = 3 := by decide

/-- Two LAPSE OVERDUE by address, and the record of a stage that expires with one entry. -/
theorem test_phaseEventRecords :
    let live := (base.setNode 7 (entry .live 8 0)).setNode 3 (entry .live 8 0)
    let bodies : State → List ExcBody := fun s =>
      ({ s with rs := { phase := 3 } } : State).phaseStep.exq.queue.map ExcRecord.body
    bodies live = [.lapse 3 .overdue, .lapse 7 .overdue] ∧
      bodies (withStage .opened [one] none none (inMode .halted base)) = [.stageExpired 0 1] := by decide

/-- One item, and sixteen at the ends of their ranges. -/
theorem witness_FramesReadAsLaidOut :
    let its : List Item := (List.finRange 16).map fun p => ⟨p, 0xFFFF⟩
    let ds : List Decl := (List.finRange 16).map fun p => ⟨p, p.val + 1, true⟩
    let ps : List (ParamId × Byte) := ParamId.all.map fun p => (p, 0xFF)
    (1 ≤ its.length ∧ its.length ≤ 16 ∧ (its.map Item.point).Nodup) ∧
    (1 ≤ (List.finRange 16).length ∧ (List.finRange 16).length ≤ 16 ∧ (List.finRange 16).Nodup) ∧
    (1 ≤ ds.length ∧ ds.length ≤ 16 ∧ (ds.map Decl.point).Nodup ∧
      ∀ d ∈ ds, 1 ≤ d.width ∧ d.width ≤ 16) ∧
    (1 ≤ ps.length ∧ ps.length ≤ 16 ∧ (ps.map Prod.fst).Nodup) := by decide

/-- A state in RUN with frames, an entry and a claim: the five invariants of capacities and lists, and PAUSE; the step
that takes its first command answers. -/
theorem witness_KeptCapacities :
    let s := withFrames 24 false (withForward [fwd (.read [0])] (withClaim .intact false base))
    let t : State := { s with tp := { s.tp with pause := true }, pending := [.readStatus (frame 0 [0])] }
    TransmitQueueLegal t ∧ ForwardQueueLegal t ∧ ExceptionQueueLegal t ∧ ClaimTableLegal t ∧ ListsLegal t ∧
      InHandLegal t ∧ (∃ u, step t = .next u) := by
  refine ⟨?_, ?_, ?_, ?_, ?_, ⟨fun h => Bool.noConfusion h, fun h => False.elim h⟩,
    ⟨_, rfl⟩⟩
  · unfold TransmitQueueLegal; decide
  · unfold ForwardQueueLegal; decide
  · unfold ExceptionQueueLegal; decide
  · unfold ClaimTableLegal; decide
  · unfold ListsLegal; decide

/-- A segment just started, a phase event waiting: the invariants of health, mode, stages and shadow. -/
theorem witness_KeptBlocks :
    let s : State := { mode := .run, ce := { clearOwed := true }, pending := [.phaseEvent] }
    HealthLegal s ∧ ModeLegal s ∧ StageStoreLegal s ∧ ShadowLegal s ∧ (∃ u, step s = .next u) := by
  intro s
  have hn : ∀ n : NodeIdx, s.node n = {} := by intro n; simp [State.node, s]
  have hs : ∀ o : Originator, s.stage o = {} := by intro o; simp [State.stage, s]
  have hp : ∀ (n : NodeIdx) (p : PointIdx), s.point n p = {} := by
    intro n p; simp [State.point, hn, NodeEntry.point]
  refine ⟨⟨by simp [Params.Legal, s], fun n => by rw [hn]; simp [NodeEntry.HealthLegal]⟩,
    by simp [ModeLegal, s, State.drained], ?_, ?_, ⟨_, rfl⟩⟩
  · exact ⟨fun o => by rw [hs]; simp [Stage.Legal], by simp [State.staged, hs], by simp [s],
      fun o => by rw [hs]; simp [s], fun o => by rw [hs]; simp [s], by simp [s]⟩
  · exact ⟨by simp [hp], by simp [hp], by simp [hp], by simp [hp], by simp [hs], by simp [s], by simp [s]⟩

end Sys2Proof.Tests
end

section
/-! SUPPORT. The drop bus as a receiver: which frames are a valid reply (R28, R178), what a received frame does in
each condition of the bus (R26, R28, R29), and who owns an outcome (R32). -/

namespace Sys2Proof

/-! ## Valid replies -/

/-- R28: a frame of fewer than four bytes is no reply, whatever its check. -/
theorem readReply_header {addr : Nat} {reads : Option Nat} {f : List Byte} {o : DropOutcome}
    (h : readReply addr reads f = some o) :
    ∃ (a st c n : Byte) (rest : List Byte), f = a :: st :: c :: n :: rest := by
  match f, h with
  | a :: st :: c :: n :: rest, _ => exact ⟨a, st, c, n, rest, rfl⟩
  | [], h | [_], h | [_, _], h | [_, _, _], h => simp [readReply] at h

/-- R28, R178: the three checks on a frame whose first four bytes are read, in order. -/
theorem readReply_cons_iff (addr : Nat) (reads : Option Nat) (a st c n : Byte) (rest : List Byte)
    (o : DropOutcome) :
    readReply addr reads (a :: st :: c :: n :: rest) = some o ↔
      checkGood (a :: st :: c :: n :: rest) = true ∧ a.toNat = addr ∧
        ∃ (cls : HoldClass) (vs : List Word),
          HoldClass.ofCode? c = some cls ∧ readValues n.toNat rest = some vs ∧
            ((st = 0x01 ∧ n.toNat = reads.getD 0 ∧ o = .accepted cls vs) ∨
              (st = 0x02 ∧ n.toNat = 0 ∧ o = .refused cls)) := by
  by_cases hk : checkGood (a :: st :: c :: n :: rest) = true
  · by_cases ha : a.toNat = addr
    · cases hc : HoldClass.ofCode? c with
      | none => simp [readReply, hc]
      | some cls =>
        cases hv : readValues n.toNat rest with
        | none => simp [readReply, hc, hv]
        | some vs =>
          by_cases hacc : st = 1#8
          · simp [readReply, ha, hc, hv, hacc, @eq_comm _ o]
          · by_cases href : st = 2#8 <;> simp [readReply, hk, ha, hc, hv, hacc, href, @eq_comm _ o]
    · simp [readReply, ha]
  · simp [readReply, hk]

/-- R178: the frames that are valid replies, byte by byte. -/
theorem readReply_iff (addr : Nat) (reads : Option Nat) (f : List Byte) (o : DropOutcome) :
    readReply addr reads f = some o ↔
      checkGood f = true ∧ ∃ (a st c n : Byte) (vs : List Word) (chk : List Byte) (cls : HoldClass),
        f = a :: st :: c :: n :: (vs.flatMap wordBytes ++ chk) ∧ chk.length = 2 ∧
        vs.length = n.toNat ∧ a.toNat = addr ∧ cls.code = c ∧
        ((st = 0x01 ∧ n.toNat = reads.getD 0 ∧ o = .accepted cls vs) ∨
          (st = 0x02 ∧ n.toNat = 0 ∧ o = .refused cls)) := by
  constructor
  · intro h
    obtain ⟨a, st, c, n, rest, rfl⟩ := readReply_header h
    obtain ⟨hk, ha, cls, vs, hc, hv, hfit⟩ := (readReply_cons_iff ..).mp h
    obtain ⟨chk, rfl, hchk, hlen⟩ := (readValues_iff ..).mp hv
    exact ⟨hk, a, st, c, n, vs, chk, cls, rfl, hchk, hlen, ha, (classOf_iff ..).mp hc, hfit⟩
  · rintro ⟨hk, a, st, c, n, vs, chk, cls, rfl, hchk, hlen, ha, hc, hfit⟩
    have hv : readValues n.toNat (vs.flatMap wordBytes ++ chk) = some vs :=
      (readValues_iff ..).mpr ⟨chk, rfl, hchk, hlen⟩
    exact (readReply_cons_iff ..).mpr ⟨hk, ha, cls, vs, (classOf_iff ..).mpr hc, hv, hfit⟩

end Sys2Proof

namespace Sys2Proof.Machine

variable {s : State} {u : UniTxn} {f : List Byte}

/-! ## A frame received, by the condition of the bus -/

/-- R29: the frame is not read. -/
theorem dropReceive_of_free (h : s.dbc.txn = none) :
    s.dropReceive f = finish s (s.count .dropReplyFaults) := by
  simp only [State.dropReceive, h]

/-- R28, R32: a valid reply while AWAITING hands its outcome over. -/
theorem dropReceive_of_valid {o : DropOutcome} (ht : s.dbc.txn = some (.uni u)) (hc : u.cond = .awaiting)
    (hr : readReply u.node.addr u.frame.readCount f = some o) :
    s.dropReceive f = finish s (s.handOver u o) := by
  simp only [State.dropReceive, ht, hc, hr]

/-- R28: a frame that fails a check while AWAITING is counted, and the transaction stays. -/
theorem dropReceive_of_fault (ht : s.dbc.txn = some (.uni u)) (hc : u.cond = .awaiting)
    (hr : readReply u.node.addr u.frame.readCount f = none) :
    s.dropReceive f = finish s (s.count .dropReplyFaults) := by
  simp only [State.dropReceive, ht, hc, hr]

/-- DROP_REPLY_TAKEN is the reception of the frame (R164: RESET not being low). -/
theorem exec_dropReplyTaken (h : s.resetLow = false) :
    exec (.dropReplyTaken f) s = .next (s.dropReceive f) :=
  (exec_eq_effect _ s).trans (congrArg _ (unlessReset_of_not_low _ h))

/-- FREE_FRAME_RECEIVED is the reception of the frame (R164: RESET not being low). -/
theorem exec_freeFrameReceived (h : s.resetLow = false) :
    exec (.freeFrameReceived f) s = .next (s.dropReceive f) :=
  (exec_eq_effect _ s).trans (congrArg _ (unlessReset_of_not_low _ h))

/-! ## The owner of an outcome (R32) -/

/-- The POU owns a WRITE. -/
theorem ownerOutcome_of_write {items : List Item} (h : u.frame = .write items) (o : DropOutcome) :
    s.ownerOutcome u o = s.writeOutcome u.node items o := by
  simp only [State.ownerOutcome, h]

/-- The POU owns a READ. -/
theorem ownerOutcome_of_read {pts : List PointIdx} (h : u.frame = .read pts) (o : DropOutcome) :
    s.ownerOutcome u o = s.readOutcome u.node pts o := by
  simp only [State.ownerOutcome, h]

/-- The RS owns a RENEW. -/
theorem ownerOutcome_of_renew {items : List Item} (h : u.frame = .renew items) (o : DropOutcome) :
    s.ownerOutcome u o = s.renewOutcome u.node o := by
  simp only [State.ownerOutcome, h]

/-- The CE owns a LOAD. -/
theorem ownerOutcome_of_load {tag : Byte} {items : List Item} (h : u.frame = .load tag items)
    (o : DropOutcome) : s.ownerOutcome u o = s.loadOutcome u.node tag items o := by
  simp only [State.ownerOutcome, h]

@[simp] theorem isRenew_write (items : List Item) : (UniFrame.write items).isRenew = false := rfl
@[simp] theorem isRenew_read (pts : List PointIdx) : (UniFrame.read pts).isRenew = false := rfl
@[simp] theorem isRenew_renew (items : List Item) : (UniFrame.renew items).isRenew = true := rfl
@[simp] theorem isRenew_load (tag : Byte) (items : List Item) : (UniFrame.load tag items).isRenew = false := rfl
@[simp] theorem readCount_write (items : List Item) : (UniFrame.write items).readCount = none := rfl
@[simp] theorem readCount_read (pts : List PointIdx) : (UniFrame.read pts).readCount = some pts.length := rfl
@[simp] theorem readCount_renew (items : List Item) : (UniFrame.renew items).readCount = none := rfl
@[simp] theorem readCount_load (tag : Byte) (items : List Item) : (UniFrame.load tag items).readCount = none := rfl

/-! ## A counted frame at a FREE bus (R29, R35) -/

/-- A counter's increment leaves the conditions of a drain's end alone. -/
@[simp] theorem count_drained (c : Counter) : (s.count c).drained = s.drained := by
  simp only [State.drained, State.busFree, count_mode, count_ce, count_dbc]

/-- Nobody begins to wait at a counter's increment. -/
theorem beginsToWait_count (c : Counter) : beginsToWait s (s.count c) = false :=
  beginsToWait_of_same (count_pou s c) (count_ce s c) (count_dbc s c) (count_stages s c) (count_nodes s c)
    (count_rs s c) (count_params s c)

/-- R35: with the bus FREE before the event, no drain to end and nobody beginning to wait, the event is no decision
event, and its NOTICE is all that follows it. -/
theorem finish_of_free_quiet {before after : State} (hf : before.dbc.txn = none) (hd : after.drained = false)
    (hw : beginsToWait before after = false) : finish before after = closeEvent before after := by
  have hend : after.endDrain = after := by simp [State.endDrain, hd]
  have hdue : decisionDue before (closeEvent before after) = false := by
    simp [decisionDue, State.busFree, hf, hw]
  simp [finish, hend, hdue]

end Sys2Proof.Machine

open Sys2Proof Sys2Proof.Machine

/-- Settles O44: the frames that are valid replies by their bytes; their reception by the two cases of `readReply`;
the owner by the kind of the frame in flight. -/
theorem replyTaken : Obligations.ReplyTaken := by
  unfold Obligations.ReplyTaken
  refine ⟨readReply_iff, ?_, ?_⟩
  · intro u f s hlow ht hc
    rw [exec_dropReplyTaken hlow]
    exact ⟨fun o hr => congrArg _ (dropReceive_of_valid ht hc hr),
      fun hr => congrArg _ (dropReceive_of_fault ht hc hr)⟩
  · intro u o s
    refine ⟨fun items h => ⟨ownerOutcome_of_write h o, ?_⟩, fun pts h => ⟨ownerOutcome_of_read h o, ?_⟩,
      fun items h => ⟨ownerOutcome_of_renew h o, ?_⟩, fun tag items h => ⟨ownerOutcome_of_load h o, ?_⟩⟩ <;>
    simp [h]

/-- Settles O45: the frame is counted, and a counter's increment brings neither the end of a drain nor a decision. -/
theorem frameWhileFree : Obligations.FrameWhileFree := by
  unfold Obligations.FrameWhileFree
  intro f s hlow hfree hd
  calc exec (.freeFrameReceived f) s
      = .next (s.dropReceive f) := exec_freeFrameReceived hlow
    _ = .next (finish s (s.count .dropReplyFaults)) := congrArg _ (dropReceive_of_free hfree)
    _ = .next (closeEvent s (s.count .dropReplyFaults)) :=
      congrArg _ (finish_of_free_quiet hfree ((count_drained _).trans hd) (beginsToWait_count _))

end

section
/-! SUPPORT. The Renewal Scheduler by the state of a node: the renewal level (R49), what a valid reply (R18, R55 to
R60) and a NO_REPLY (R18, R58, R59) do to the node's health, and the record that each offers (R57, R58). -/

namespace Sys2Proof.Machine

/-! ## The renewal level, by state (R49) -/

section Levels

variable {p : Params} {e : NodeEntry}

theorem levelOf_of_lapsed (h : e.state = .lapsed) : levelOf p e = some .panic := by
  simp only [levelOf, h]

/-- The watermarks are tried from the highest down. -/
theorem levelOf_of_live (h : e.state = .live) :
    levelOf p e =
      if p.panicWatermark ≤ e.debt then some .panic
      else if p.highWatermark ≤ e.debt then some .high
      else if 1 ≤ e.debt then some .low
      else none := by
  simp only [levelOf, h]

theorem levelOf_of_silent (h : e.state = .silent) :
    levelOf p e = if e.probe = 0 then some .high else none := by
  simp only [levelOf, h]

theorem levelOf_of_out_of_service (h : e.state = .parked ∨ e.state = .absent) : levelOf p e = none := by
  obtain h | h := h <;> simp only [levelOf, h]

end Levels

/-! ## A valid reply (R18, R55 to R60) -/

section Health

variable {s : State} {n : NodeIdx}

theorem inService_iff (st : NodeState) : st.inService = true ↔ st = .live ∨ st = .lapsed ∨ st = .silent := by
  cases st <;> decide

/-- The three states in service share one rule: the entry is replaced, and then a record may be offered. -/
theorem healthValid_of_inService (isRenew accepted : Bool) (c : HoldClass)
    (h : (s.node n).state.inService = true) :
    s.healthValid n isRenew accepted c =
      (s.setNode n (healthReply s.params.wakeDebits isRenew accepted c (s.node n))).offer?
        (healthRecord n c (s.node n).state) := by
  obtain hst | hst | hst := (inService_iff _).mp h <;> simp only [State.healthValid, hst]

/-- R18: of a PARKED node only the reported class is kept. -/
theorem healthValid_of_parked (isRenew accepted : Bool) (c : HoldClass) (h : (s.node n).state = .parked) :
    s.healthValid n isRenew accepted c = s.setNode n { s.node n with cls := c } := by
  simp only [State.healthValid, h]

/-- R57: the class DROPPED brings a LAPSE unless the node has lapsed already; any other class restores a node that
was not LIVE. -/
theorem healthRecord_of_inService (c : HoldClass) {st : NodeState} (h : st.inService = true) :
    healthRecord n c st =
      if c = .dropped ∧ st ≠ .lapsed then some (.lapse n .dropped)
      else if c ≠ .dropped ∧ st ≠ .live then some (.restored n)
      else none := by
  obtain rfl | rfl | rfl := (inService_iff st).mp h <;> cases c <;> rfl

@[simp] theorem offer?_some (b : ExcBody) : s.offer? (some b) = s.offer b := rfl
@[simp] theorem offer?_none : s.offer? none = s := rfl

/-- A choice of record is a choice of what is offered. -/
theorem offer?_ite (q : Prop) [Decidable q] (b b' : Option ExcBody) :
    s.offer? (if q then b else b') = if q then s.offer? b else s.offer? b' :=
  apply_ite (s.offer? ·) q b b'

/-! ## No valid reply (R18, R58, R59) -/

/-- R58: the third silence in a row makes the node SILENT, and an earlier one is only counted. -/
theorem healthNoReply_of_live_or_lapsed (isRenew : Bool)
    (h : (s.node n).state = .live ∨ (s.node n).state = .lapsed) :
    s.healthNoReply n isRenew =
      if (s.node n).silence + 1 = 3 then
        (s.setNode n { s.node n with silence := 3, state := .silent, probe := 8 }).offer (.silent n)
      else s.setNode n { s.node n with silence := (s.node n).silence + 1 } := by
  obtain h | h := h <;> simp only [State.healthNoReply, h]

/-- R59: a RENEW that a SILENT node leaves unanswered starts its probe countdown again. -/
theorem healthNoReply_of_silent (isRenew : Bool) (h : (s.node n).state = .silent) :
    s.healthNoReply n isRenew = if isRenew then s.setNode n { s.node n with probe := 8 } else s := by
  simp only [State.healthNoReply, h]

theorem healthNoReply_of_parked (isRenew : Bool) (h : (s.node n).state = .parked) :
    s.healthNoReply n isRenew = s := by
  simp only [State.healthNoReply, h]

end Health

end Sys2Proof.Machine

open Sys2Proof Sys2Proof.Machine

/-- Settles O47: a valid reply in service by its one rule with R57's record; NO_REPLY by the node's state. -/
theorem nodeHealthAtOutcomes : Obligations.NodeHealthAtOutcomes := by
  unfold Obligations.NodeHealthAtOutcomes
  refine ⟨fun _ _ _ _ _ => ⟨rfl, rfl, rfl⟩, ?_, ?_⟩
  · intro n isRenew accepted c s hin
    rw [healthValid_of_inService isRenew accepted c hin, healthRecord_of_inService c hin]
    simp [offer?_ite, healthReply]
  · intro n isRenew accepted c s
    refine ⟨fun h hcount => ?_, fun h hcount => ?_, healthNoReply_of_silent isRenew, fun h => ?_⟩
    · rw [healthNoReply_of_live_or_lapsed isRenew h, if_neg hcount]
    · rw [healthNoReply_of_live_or_lapsed isRenew h, if_pos hcount]
    · exact ⟨healthNoReply_of_parked isRenew h, healthValid_of_parked isRenew accepted c h⟩

/-- Settles O49: by the node's state; a LIVE node's debt against the watermarks, the panic watermark being the
higher and the high watermark at least 1. -/
theorem renewalLevels : Obligations.RenewalLevels := by
  unfold Obligations.RenewalLevels
  intro p e hwm hpos
  refine ⟨levelOf_of_lapsed, fun h hd => ?_, fun h hd hlt => ?_, fun h hd hlt => ?_, fun h hd => ?_,
    fun h hp => ?_, fun h hp => ?_, levelOf_of_out_of_service⟩
  · rw [levelOf_of_live h, if_pos hd]
  · rw [levelOf_of_live h, if_neg (by omega), if_pos hd]
  · rw [levelOf_of_live h, if_neg (by omega), if_neg (by omega), if_pos hd]
  · rw [levelOf_of_live h, if_neg (by omega), if_neg (by omega), if_neg (by omega)]
  · rw [levelOf_of_silent h, if_pos hp]
  · rw [levelOf_of_silent h, if_neg hp]

end

section
/-! SUPPORT. A stage that leaves the commit queue (R124, R135), and a DISCARD by the state of the sender's stage
(R124). -/

namespace Sys2Proof.Machine

variable {s : State}

/-! ## A stage leaves the commit queue -/

/-- R135: the COMMIT that a stage records is answered to its originator under its own tag. -/
theorem answerCommit_of_request {o : Originator} {tag : Byte} (h : (s.stage o).request = some tag)
    (st : Status) (body : List Byte) :
    s.answerCommit o st body =
      s.respond { originator := o, tag := tag, kind := ReqKind.commit.code, status := st, body := body } := by
  simp only [State.answerCommit, h]

/-- R124: the other stages in the commit queue keep their order; the COMMIT is answered ABORTED. -/
theorem unqueueStage_of_request {o : Originator} {tag : Byte} (h : (s.stage o).request = some tag) :
    s.unqueueStage o =
      let s1 := s.respond { originator := o, tag := tag, kind := ReqKind.commit.code, status := .aborted }
      { s1 with ce := { s1.ce with queue := s1.ce.queue.filter (· ≠ o) } } := by
  have hne : (fun x : Originator => x != o) = fun x => decide (x ≠ o) := by
    funext x
    simp [bne, beq_eq_decide]
  simp only [State.unqueueStage, answerCommit_of_request h, hne]

/-! ## A DISCARD, by the state of the stage -/

section Discard

variable {rq : Request} (ht : s.takesFrames = true) (hf : ForPart readEmptyBody rq ())

include ht hf

theorem discardRequest_of_closed (hg : (s.stage rq.originator).state = .closed) :
    discardRequest rq s = answer s (replyTo rq .discard .ok {} [0x00]) s := by
  simp only [discardRequest, segmentRequest_of_forPart ht hf, hg]

theorem discardRequest_of_opened (hg : (s.stage rq.originator).state = .opened) :
    discardRequest rq s =
      answer s (replyTo rq .discard .ok {} [byteOf (s.stage rq.originator).entries.length])
        (s.closeStage rq.originator) := by
  simp only [discardRequest, segmentRequest_of_forPart ht hf, hg]

theorem discardRequest_of_queued (hg : (s.stage rq.originator).state = .queued) :
    discardRequest rq s =
      answer s (replyTo rq .discard .ok {} [byteOf (s.stage rq.originator).entries.length])
        ((s.unqueueStage rq.originator).closeStage rq.originator) := by
  simp only [discardRequest, segmentRequest_of_forPart ht hf, hg]

theorem discardRequest_of_committing (hg : (s.stage rq.originator).state = .committing) :
    discardRequest rq s = answer s (replyTo rq .discard .stageBusy) s := by
  simp only [discardRequest, segmentRequest_of_forPart ht hf, hg]

end Discard

end Sys2Proof.Machine

open Sys2Proof Sys2Proof.Machine

/-- Settles O22: by the state of the stage; a QUEUED stage leaves the commit queue before it is closed. -/
theorem discardIsDecided : Obligations.DiscardIsDecided := by
  unfold Obligations.DiscardIsDecided
  intro rq s ht hf
  have hexec : exec (.discard rq) s = .next (discardRequest rq s) := exec_eq_effect _ s
  rw [hexec]
  refine ⟨fun hg => ?closed, fun hg => ?opened, fun tag hg hreq => ?queued, fun hg => ?committing⟩
  case closed => rw [discardRequest_of_closed ht hf hg]
  case opened => rw [discardRequest_of_opened ht hf hg, State.closeStage]
  case queued =>
    rw [discardRequest_of_queued ht hf hg, unqueueStage_of_request hreq, State.closeStage]
    rfl
  case committing => rw [discardRequest_of_committing ht hf hg]

end

section
/-! SUPPORT. What a step can do to the state, said once: the small changes (`Move`) that every command and the
passing of time are made of. A property that no change breaks is kept by every step (`kept_of_move`). -/

namespace Sys2Proof.Machine

/-! ## The changes -/

/-- A value that may become the active value of a point: its pending value (R133), or a value that the WRITE in
flight carries for it (R87). -/
def Incoming (s : State) (n : NodeIdx) (p : PointIdx) (v : Word) : Prop :=
  (s.point n p).pending = some v ∨
    ∃ (t : UniTxn) (items : List Item), s.dbc.txn = some (.uni t) ∧ t.frame = .write items ∧ t.node = n ∧
      { point := p, value := v } ∈ items

/-- A value that the LOAD in flight carries for a point (R131). -/
def Loading (s : State) (n : NodeIdx) (p : PointIdx) (v : Word) : Prop :=
  ∃ (t : UniTxn) (tag : Byte) (items : List Item), s.dbc.txn = some (.uni t) ∧ t.frame = .load tag items ∧
    t.node = n ∧ { point := p, value := v } ∈ items

/-- The frame that the grant of an entry builds for its node (R79, R86, R88, R92, R110). -/
def BuiltFor (s : State) (e : FwdEntry) (f : UniFrame) : Prop :=
  match e.op with
  | .read pts => f = .read pts
  | .write items => f = .write items
  | .modify p o b => ∃ v, (s.point e.node p).active = some v ∧ f = .write [{ point := p, value := o.apply b v }]
  | .release it => f = .write [it]

/-- A WRITE or READ, which the POU owns (R79). -/
def UniFrame.ofPou : UniFrame → Bool
  | .write _ | .read _ => true
  | .renew _ | .load _ _ => false

/-- An entry whose points are kept, that does not become ABSENT, and whose health stays in its range under legal
parameters (R168, R46, R58). -/
def HealthStep (p : Params) (e e' : NodeEntry) : Prop :=
  e'.points = e.points ∧ (e'.state = .absent → e.state = .absent) ∧
    (p.Legal → e.HealthLegal → e'.HealthLegal)

/-- One change that a step can make. What each needs of the state before it stands as a hypothesis. -/
inductive Move (s : State) : State → Prop
  | freeValueUsed (k : Nat) : Move s { s with freeIndex := k }
  | resetTaken (low : Bool) : Move s { s.fullReset with resetLow := low }
  -- Trunk Port
  | frameJoins (f : TrunkFrame) (h : s.tp.queue.length < 32) : Move s (s.enqueue f)
  | frameLeaves {f : TrunkFrame} {rest : List TrunkFrame} (h : s.tp.queue = f :: rest) :
      Move s (s.frameLeft rest)
  | portCloses : Move s { s with tp := { s.tp with closing := true } }
  -- counters, flags and records of what happened
  | tallied (c : Counters) (flags mask : BitVec 5) (sum : CondSet) (last : Option LastRefusal) :
      Move s { s with
        counters := c
        exq := { s.exq with flags := flags, mask := mask }
        pou := { s.pou with summary := sum, lastRefusal := last } }
  | recordJoins (r : ExcRecord) (h : s.exq.queue.length < 32) :
      Move s { s with exq := { s.exq with queue := s.exq.queue ++ [r] } }
  | recordsRead (k : Nat) : Move s { s with exq := { s.exq with queue := s.exq.queue.drop k } }
  | paramsSet (items : List (ParamId × Byte)) (h : paramRefusal s items = none) : Move s (s.setParams items)
  -- Node Table
  | configured (n : NodeIdx) (ds : List Decl) (h : (s.node n).state = .absent) :
      Move s (s.setNode n (configuredEntry ds))
  | removed (n : NodeIdx) (hp : (s.node n).state = .parked) (hu : s.inUse n = false) : Move s (s.setNode n {})
  | healthChanges (nodes : Vector NodeEntry 48)
      (h : ∀ n : NodeIdx, HealthStep s.params (s.node n) nodes[n]) : Move s { s with nodes := nodes }
  | valueSet (n : NodeIdx) (p : PointIdx) (v : Word) (h : Incoming s n p v) :
      Move s (s.setPoint n p { s.point n p with active := some v })
  | valueLoaded (n : NodeIdx) (p : PointIdx) (v : Word) (h : Loading s n p v) :
      Move s (s.setPending n p (some v))
  | pendingGone (n : NodeIdx) (p : PointIdx) : Move s (s.setPending n p none)
  -- Claim Table
  | claimsShrink (cs : List Claim)
      (h : (cs.map fun c => (c.node, c.point)).Sublist (s.claims.map fun c => (c.node, c.point))) :
      Move s { s with claims := cs }
  | claimAdded (c : Claim) (hl : s.claims.length < 8) (hn : s.claimOn c.node c.point = none) :
      Move s { s with claims := s.claims ++ [c] }
  -- Stage Store and Commit Engine
  | staged (o : Originator) (n : NodeIdx) (items : List Item)
      (hg : (s.stage o).state = .closed ∨ (s.stage o).state = .opened)
      (hne : items ≠ []) (hnd : (items.map Item.point).Nodup)
      (hfit : ∀ it ∈ items, FitsPoint s n it.point it.value)
      (h64 : (s.stage o).entries.length + ((s.stage o).newItems n items).length ≤ 64)
      (hpool : ((s.stage o).newItems n items).length ≤ s.poolFree) :
      Move s (s.setStage o { s.stage o with
        state := .opened, entries := (s.stage o).merge n items, life := some s.params.stageTimeout })
  | stagesAge : Move s s.ageStages
  | stageDiscarded (o : Originator) (h : (s.stage o).state = .opened) : Move s (s.closeStage o)
  | openStagesClosed : Move s s.closeOpen
  | stageQueued (o : Originator) (tag : Byte) (hm : s.mode = .run) (h : (s.stage o).state = .opened) :
      Move s (s.queueStage o tag)
  | stageUnqueued (o : Originator) (h : (s.stage o).state = .queued) :
      Move s (State.closeStage o { s with ce := { s.ce with queue := s.ce.queue.filter fun x => x != o } })
  | queueAborted (stages : Vector Stage 4)
      (h : ∀ o : Originator, stages[o] = if o ∈ s.ce.queue then {} else s.stage o) :
      Move s { s with stages := stages, ce := { s.ce with queue := [] } }
  | queueReopened (stages : Vector Stage 4)
      (h : ∀ o : Originator, o ∈ s.ce.queue → ∃ life : Nat,
        stages[o] = { s.stage o with state := .opened, life := some life, request := none })
      (h' : ∀ o : Originator, o ∉ s.ce.queue → stages[o] = s.stage o) :
      Move s { s with stages := stages, ce := { s.ce with queue := [] } }
  | commitTaken : Move s s.takeCommit
  | commitMoves (c c' : Commit) (h : s.ce.commit = some c) (ho : c'.originator = c.originator) :
      Move s { s with ce := { s.ce with commit := some c' } }
  | commitClosed (c : Commit) (h : s.ce.commit = some c) :
      Move s { s.closeStage c.originator with ce := { s.ce with commit := none } }
  | clearSent : Move s { s with ce := { s.ce with clearOwed := false } }
  -- the mode
  | runEntered (h : s.mode = .halted) : Move s { s with mode := .run, ce := { s.ce with clearOwed := true } }
  | drainEntered (h : s.mode = .run) (hf : s.pou.forward = []) (hq : s.ce.queue = []) :
      Move s { s with mode := .draining }
  | drainEnds (h : s.drained = true) : Move s { s with mode := .halted }
  -- the forward queue
  | entryJoins (e : FwdEntry) (hm : s.mode = .run) (hr : s.forwardFull e.originator = false)
      (hf : e.op.FitsNode s e.node) : Move s (queued s e)
  | entryRefused {e : FwdEntry} {rest : List FwdEntry} (h : s.pou.forward = e :: rest) :
      Move s { s with pou := { s.pou with forward := rest } }
  | forwardCleared : Move s { s with pou := { s.pou with forward := [] } }
  -- the drop bus
  | entryGranted {e : FwdEntry} {rest : List FwdEntry} (i : InHand) (f : UniFrame)
      (ht : s.dbc.txn = none) (hm : s.mode ≠ .halted) (hq : s.pou.forward = e :: rest) (hf : BuiltFor s e f) :
      Move s (State.startUni e.node f { s with pou := { s.pou with forward := rest, inHand := some i } })
  | loadGranted (o : Originator) (n : NodeIdx) (tag : Byte) (ht : s.dbc.txn = none) (hm : s.mode ≠ .halted) :
      Move s (s.startUni n (.load tag (loadItems (s.stage o).entries n)))
  | renewGranted (n : NodeIdx) (items : List Item) (ht : s.dbc.txn = none) (hm : s.mode ≠ .halted) :
      Move s (s.startUni n (.renew items))
  | broadGranted (f : BroadFrame) (ht : s.dbc.txn = none) (hm : s.mode ≠ .halted) : Move s (s.startBroad f)
  | uniRuns (t t' : UniTxn) (h : s.dbc.txn = some (.uni t)) (hn : t'.node = t.node) (hf : t'.frame = t.frame) :
      Move s { s with dbc := { s.dbc with txn := some (.uni t') } }
  | busFreed (h : ∀ t : UniTxn, s.dbc.txn = some (.uni t) → t.frame.ofPou = false) : Move s s.freeBus
  | handFreed (t : UniTxn) (h : s.dbc.txn = some (.uni t)) (hf : t.frame.ofPou = true) :
      Move s { s.freeBus with pou := { s.pou with inHand := none } }
  | idleTimerRuns (k : Nat) : Move s { s with dbc := { s.dbc with idleTimer := k } }
  | grantBooked (r : Requester) (st : GrantStep) : Move s (s.bookGrant r st)
  -- Renewal Scheduler
  | renewalRuns (r : Renewal) : Move s { s with rs := r }

/-- Some changes, one after another. -/
abbrev Moves : State → State → Prop := Relation.ReflTransGen Move

variable {s t : State}

/-! ## An entry at the tail of the forward queue leaves alone what is not the forward queue -/

@[simp] theorem queued_nodes (e : FwdEntry) : (queued s e).nodes = s.nodes := rfl
@[simp] theorem queued_tp (e : FwdEntry) : (queued s e).tp = s.tp := rfl
@[simp] theorem queued_rs (e : FwdEntry) : (queued s e).rs = s.rs := rfl
@[simp] theorem queued_claims (e : FwdEntry) : (queued s e).claims = s.claims := rfl
@[simp] theorem queued_stages (e : FwdEntry) : (queued s e).stages = s.stages := rfl
@[simp] theorem queued_ce (e : FwdEntry) : (queued s e).ce = s.ce := rfl
@[simp] theorem queued_dbc (e : FwdEntry) : (queued s e).dbc = s.dbc := rfl
@[simp] theorem queued_exq (e : FwdEntry) : (queued s e).exq = s.exq := rfl
@[simp] theorem queued_counters (e : FwdEntry) : (queued s e).counters = s.counters := rfl
@[simp] theorem queued_mode (e : FwdEntry) : (queued s e).mode = s.mode := rfl
@[simp] theorem queued_params (e : FwdEntry) : (queued s e).params = s.params := rfl
@[simp] theorem queued_inHand (e : FwdEntry) : (queued s e).pou.inHand = s.pou.inHand := rfl
@[simp] theorem queued_forward (e : FwdEntry) : (queued s e).pou.forward = s.pou.forward ++ [e] := rfl

/-! ## Counters, flags and frames -/

theorem count_moves (c : Counter) (h : Moves s t) : Moves s (t.count c) := by
  refine h.tail ?_
  unfold State.count
  split
  · exact .tallied (t.counters.incr c) (t.exq.flags ||| NoticeFlag.counterWrap.bit) t.exq.mask t.pou.summary
      t.pou.lastRefusal
  · exact .tallied (t.counters.incr c) t.exq.flags t.exq.mask t.pou.summary t.pou.lastRefusal

theorem raise_moves (f : NoticeFlag) (h : Moves s t) : Moves s (t.raise f) :=
  h.tail (.tallied t.counters (t.exq.flags ||| f.bit) t.exq.mask t.pou.summary t.pou.lastRefusal)

theorem enqueue_moves (f : TrunkFrame) (h : Moves s t) (_ : t.tp.closing = false)
    (hl : t.tp.queue.length < 32) : Moves s (t.enqueue f) :=
  h.tail (.frameJoins f hl)

theorem respond_moves (r : Response) (h : Moves s t) : Moves s (t.respond r) :=
  respond_keeps (fun f _ h => enqueue_moves f h) (fun c _ h => count_moves c h) r h

theorem responds_moves (rs : List Response) (h : Moves s t) :
    Moves s (rs.foldl (fun u r => u.respond r) t) :=
  foldl_induction (fun _ r h => respond_moves r h) rs t h

theorem closeEvent_moves (b : State) (h : Moves s t) : Moves s (closeEvent b t) :=
  closeEvent_keeps (fun f _ h => enqueue_moves f h) b h

theorem answer_moves (b : State) (r : Response) (h : Moves s t) : Moves s (answer b r t) :=
  closeEvent_moves b (respond_moves r h)

theorem offer_moves (b : ExcBody) (h : Moves s t) : Moves s (t.offer b) := by
  unfold State.offer
  split
  · next hl =>
    have hj : Moves s { t with exq := { t.exq with
        queue := t.exq.queue ++ [{ body := b, stamp := t.rs.intervalCount }] } } :=
      h.tail (.recordJoins { body := b, stamp := t.rs.intervalCount } hl)
    dsimp only
    split
    · exact raise_moves _ hj
    · exact hj
  · exact raise_moves _ (count_moves _ h)

theorem offer?_moves (b : Option ExcBody) (h : Moves s t) : Moves s (t.offer? b) := by
  cases b with
  | none => exact h
  | some b => exact offer_moves b h

theorem offerGroups_moves (a b c : List ExcBody) (h : Moves s t) : Moves s (t.offerGroups a b c) :=
  foldl_induction (P := Moves s) (fun _ b h => offer_moves b h) _ _ (h.tail (.freeValueUsed _))

theorem impotentPass_moves (c : Condition) (h : Moves s t) : Moves s (t.impotentPass c) :=
  (count_moves .impotentWrites h).tail
    (.tallied (t.count .impotentWrites).counters (t.count .impotentWrites).exq.flags
      (t.count .impotentWrites).exq.mask ((t.count .impotentWrites).pou.summary.add c)
      (t.count .impotentWrites).pou.lastRefusal)

theorem passOverrange_moves (c : CondSet) (h : Moves s t) : Moves s (t.passOverrange c) := by
  unfold State.passOverrange
  split
  · exact impotentPass_moves _ h
  · exact h

theorem potentRefusal_moves (o : Originator) (tag : Byte) (k : ReqKind) (n : NodeIdx) (p : PointIdx)
    (c : Condition) (h : Moves s t) : Moves s (t.potentRefusal o tag k n p c) :=
  (count_moves .potentRefusals h).tail
    (.tallied (t.count .potentRefusals).counters (t.count .potentRefusals).exq.flags
      (t.count .potentRefusals).exq.mask (t.count .potentRefusals).pou.summary
      (some { originator := o, tag := tag, kind := k, node := n, point := p, condition := c }))

theorem endDrain_moves (h : Moves s t) : Moves s t.endDrain := by
  obtain ⟨_, he⟩ | ⟨hd, he⟩ := endDrain_cases t <;> rw [he]
  · exact h
  · exact raise_moves _ (h.tail (.drainEnds hd))

/-! ## Claims and values -/

/-- Claims that keep their points, some of them removed. -/
theorem claims_moves {cs : List Claim} (h : Moves s t)
    (hk : (cs.map fun c => (c.node, c.point)).Sublist (t.claims.map fun c => (c.node, c.point))) :
    Moves s { t with claims := cs } :=
  h.tail (.claimsShrink cs hk)

/-- Claims changed but for their points. -/
theorem claimsMapped_moves {f : Claim → Claim} (h : Moves s t)
    (hf : ∀ c, (f c).node = c.node ∧ (f c).point = c.point) :
    Moves s { t with claims := t.claims.map f } :=
  claims_moves h (by simp [Function.comp_def, hf])

/-- Claims removed. -/
theorem claimsFiltered_moves (q : Claim → Bool) (h : Moves s t) :
    Moves s { t with claims := t.claims.filter q } :=
  claims_moves h (List.filter_sublist.map _)

theorem mapClaim_moves (n : NodeIdx) (p : PointIdx) {f : Claim → Claim} (h : Moves s t)
    (hf : ∀ c, (f c).node = c.node ∧ (f c).point = c.point) : Moves s (t.mapClaim n p f) :=
  claimsMapped_moves h fun c => by split <;> simp [hf]

theorem breakClaim_moves (n : NodeIdx) (p : PointIdx) (c : BreakCause) (h : Moves s t) :
    Moves s (t.breakClaim n p c) := by
  unfold State.breakClaim
  split
  · split
    · exact offer_moves _ (mapClaim_moves n p h fun _ => ⟨rfl, rfl⟩)
    · exact h
  · exact h

theorem setActive_moves {n : NodeIdx} {p : PointIdx} {v : Word} (c : BreakCause) (h : Moves s t)
    (hv : Incoming t n p v) : Moves s (t.setActive n p v c) :=
  breakClaim_moves n p c (h.tail (.valueSet n p v hv))

theorem takePoint_moves (e : StageEntry) (h : Moves s t) : Moves s (t.takePoint e) := by
  unfold State.takePoint
  split
  · next v hv => exact setActive_moves _ h (.inl hv)
  · exact h

theorem dropPending_moves (es : List StageEntry) (h : Moves s t) : Moves s (t.dropPending es) :=
  foldl_induction (P := Moves s) (fun _ e h => h.tail (.pendingGone e.node e.point)) es t h

/-- The values that the WRITE in flight carries, applied while it is in flight. -/
theorem applyWrite_moves {u : UniTxn} {items : List Item} (hf : u.frame = .write items) (h : Moves s t)
    (ht : t.dbc.txn = some (.uni u)) : Moves s (t.applyWrite u.node items) := by
  have hsub : ∀ l : List Item, l ⊆ items → ∀ t : State, Moves s t → t.dbc.txn = some (.uni u) →
      Moves s (t.applyWrite u.node l) := by
    intro l
    induction l with
    | nil => exact fun _ _ h _ => h
    | cons it l ih =>
      intro hl t h ht
      obtain ⟨hit, hl⟩ := List.cons_subset.mp hl
      exact ih hl _ (setActive_moves .write h (.inr ⟨u, items, ht, hf, rfl, hit⟩)) (by simpa using ht)
  exact hsub items (List.Subset.refl _) t h ht

/-- The pending values that a LOAD carries, set one after another (R131). -/
def State.setPendings (n : NodeIdx) (items : List Item) (s : State) : State :=
  items.foldl (fun s it => s.setPending n it.point (some it.value)) s

@[simp] theorem setPendings_dbc (n : NodeIdx) (items : List Item) : (t.setPendings n items).dbc = t.dbc :=
  foldl_keeps (fun s (it : Item) => s.setPending n it.point (some it.value)) State.dbc (fun _ _ => rfl) items t

@[simp] theorem setPendings_ce (n : NodeIdx) (items : List Item) : (t.setPendings n items).ce = t.ce :=
  foldl_keeps (fun s (it : Item) => s.setPending n it.point (some it.value)) State.ce (fun _ _ => rfl) items t

/-- The values that the LOAD in flight carries, set while it is in flight. -/
theorem setPendings_moves {u : UniTxn} {tag : Byte} {items : List Item} (hf : u.frame = .load tag items)
    (h : Moves s t) (ht : t.dbc.txn = some (.uni u)) : Moves s (t.setPendings u.node items) := by
  have hsub : ∀ l : List Item, l ⊆ items → ∀ t : State, Moves s t → t.dbc.txn = some (.uni u) →
      Moves s (t.setPendings u.node l) := by
    intro l
    induction l with
    | nil => exact fun _ _ h _ => h
    | cons it l ih =>
      intro hl t h ht
      obtain ⟨hit, hl⟩ := List.cons_subset.mp hl
      exact ih hl _ (h.tail (.valueLoaded _ _ _ ⟨u, tag, items, ht, hf, rfl, hit⟩)) ht
  exact hsub items (List.Subset.refl _) t h ht

end Sys2Proof.Machine
end

section
/-! SUPPORT. Grants, outcomes and the ends of events as changes of the state: the checks of a grant (R78), what each
requester's grant does (R26), a decision (R36), and the outcome of a transaction (R32). -/

namespace Sys2Proof.Machine

variable {s t : State}

/-! ## The forward queue's head at its grant -/

/-- The state with this rest as its forward queue. -/
def State.withForward (rest : List FwdEntry) (s : State) : State :=
  { s with pou := { s.pou with forward := rest } }

/-- What a check at a grant leaves, with this rest as the forward queue. -/
def GrantCheck.withForward (rest : List FwdEntry) (g : GrantCheck) : GrantCheck :=
  { g with state := g.state.withForward rest }

@[simp] theorem withForward_point (rest : List FwdEntry) (n : NodeIdx) (p : PointIdx) :
    (s.withForward rest).point n p = s.point n p := rfl
@[simp] theorem withForward_node (rest : List FwdEntry) (n : NodeIdx) :
    (s.withForward rest).node n = s.node n := rfl
@[simp] theorem withForward_params (rest : List FwdEntry) : (s.withForward rest).params = s.params := rfl
@[simp] theorem withForward_claimOf (rest : List FwdEntry) (o : Originator) (n : NodeIdx) (p : PointIdx) :
    (s.withForward rest).claimOf o n p = s.claimOf o n p := rfl

theorem count_withForward (rest : List FwdEntry) (c : Counter) :
    (s.withForward rest).count c = (s.count c).withForward rest := by
  by_cases h : s.counters.get c = 0xFFFF#16
  · simp [State.count, State.withForward, State.raise, h]
  · simp [State.count, State.withForward, h]

theorem potentRefusal_withForward (rest : List FwdEntry) (o : Originator) (tag : Byte) (k : ReqKind)
    (n : NodeIdx) (p : PointIdx) (c : Condition) :
    (s.withForward rest).potentRefusal o tag k n p c =
      (s.potentRefusal o tag k n p c).withForward rest := by
  simp only [State.potentRefusal, count_withForward]
  rfl

theorem impotentPass_withForward (rest : List FwdEntry) (c : Condition) :
    (s.withForward rest).impotentPass c = (s.impotentPass c).withForward rest := by
  simp only [State.impotentPass, count_withForward]
  rfl

/-- The CONFLICT check does not look at the forward queue. -/
theorem conflictCheck_withForward (rest : List FwdEntry) (e : FwdEntry) (pts : List PointIdx) :
    conflictCheck e pts (s.withForward rest) = (conflictCheck e pts s).withForward rest := by
  cases hp : pts.find? fun p => (s.point e.node p).pending.isSome with
  | none => simp [conflictCheck, hp, GrantCheck.withForward]
  | some p =>
    cases hc : s.params.conflictPotency <;>
      simp [conflictCheck, hp, hc, GrantCheck.withForward, refusePotent, passImpotent,
        potentRefusal_withForward, impotentPass_withForward]

/-- The BROKEN check does not look at the forward queue. -/
theorem brokenCheck_withForward (rest : List FwdEntry) (e : FwdEntry) (p : PointIdx) (c : Claim) :
    brokenCheck e p c (s.withForward rest) = (brokenCheck e p c s).withForward rest := by
  have hd : (s.withForward rest).dropClaim e.node p = (s.dropClaim e.node p).withForward rest := rfl
  cases hc : c.state with
  | intact => simp [brokenCheck, hc, GrantCheck.withForward]
  | broken =>
    cases hb : s.params.brokenPotency <;>
      simp [brokenCheck, hc, hb, hd, GrantCheck.withForward, refusePotent, passImpotent,
        potentRefusal_withForward, impotentPass_withForward]

/-- What the checks of an entry's grant leave for the transaction that is built after them. -/
structure Checked (t : State) (e : FwdEntry) (g : GrantCheck) : Prop where
  moves : Moves t g.state
  forward : g.state.pou.forward = t.pou.forward
  nodes : g.state.nodes = t.nodes
  dbc : g.state.dbc = t.dbc
  mode : g.state.mode = t.mode
  node : g.entry.node = e.node
  op : g.entry.op = e.op

variable {e : FwdEntry} {g : GrantCheck}

/-- Before any check. -/
theorem checked_start (t : State) (e : FwdEntry) : Checked t e { state := t, entry := e, refusal := none } :=
  ⟨.refl, rfl, rfl, rfl, rfl, rfl, rfl⟩

theorem refusePotent_checked (h : Checked t e g) (p : PointIdx) (c : Condition) :
    Checked t e (refusePotent g.entry p c g.state) where
  moves := potentRefusal_moves _ _ _ _ _ _ h.moves
  forward := by simpa [refusePotent] using h.forward
  nodes := by simpa [refusePotent] using h.nodes
  dbc := by simpa [refusePotent] using h.dbc
  mode := by simpa [refusePotent] using h.mode
  node := h.node
  op := h.op

theorem passImpotent_checked (h : Checked t e g) (c : Condition) :
    Checked t e (passImpotent g.entry c g.state) where
  moves := impotentPass_moves _ h.moves
  forward := by simpa [passImpotent] using h.forward
  nodes := by simpa [passImpotent] using h.nodes
  dbc := by simpa [passImpotent] using h.dbc
  mode := by simpa [passImpotent] using h.mode
  node := h.node
  op := h.op

theorem conflictCheck_checked (h : Checked t e g) (pts : List PointIdx) :
    Checked t e (conflictCheck g.entry pts g.state) := by
  unfold conflictCheck
  split
  · exact ⟨h.moves, h.forward, h.nodes, h.dbc, h.mode, h.node, h.op⟩
  · split
    · exact refusePotent_checked h _ _
    · exact passImpotent_checked h _

theorem brokenCheck_checked (h : Checked t e g) (p : PointIdx) (c : Claim) :
    Checked t e (brokenCheck g.entry p c g.state) := by
  unfold brokenCheck
  split
  · exact ⟨h.moves, h.forward, h.nodes, h.dbc, h.mode, h.node, h.op⟩
  · split
    · have hd : Checked t e { g with state := g.state.dropClaim g.entry.node p } :=
        ⟨claimsFiltered_moves _ h.moves, h.forward, h.nodes, h.dbc, h.mode, h.node, h.op⟩
      exact refusePotent_checked hd _ _
    · exact passImpotent_checked h _

section Grant

variable {rest : List FwdEntry} (hq : t.pou.forward = e :: rest)

include hq

/-- A refused grant: the entry has left the queue and is answered. -/
theorem refuseGrant_moves (h : Checked t e g) (d : FwdEntry) (st : Status) :
    Moves t (refuseGrant d st (g.state.withForward rest)).1 :=
  respond_moves _ (h.moves.tail (.entryRefused (h.forward.trans hq)))

variable (ht : t.dbc.txn = none) (hm : t.mode ≠ .halted)

include ht hm

/-- A used grant: the entry has left the queue and is in hand while its frame is transmitted. -/
theorem startInHand_moves (h : Checked t e g) (m : Option (Word × Bool)) {f : UniFrame}
    (hf : BuiltFor t e f) : Moves t (startInHand g.entry m f (g.state.withForward rest)).1 := by
  have hb : BuiltFor g.state e f := by
    have hp : ∀ (n : NodeIdx) (p : PointIdx), g.state.point n p = t.point n p := point_of_same_nodes h.nodes
    simpa only [BuiltFor, hp] using hf
  have hgrant : Move g.state (State.startUni e.node f { g.state with pou :=
      { g.state.pou with forward := rest, inHand := some { entry := g.entry, modified := m } } }) :=
    .entryGranted _ f (h.dbc ▸ ht) (h.mode ▸ hm) (h.forward.trans hq) hb
  rw [← h.node] at hgrant
  exact h.moves.tail hgrant

theorem afterConflict_moves (h : Checked t e g) (pts : List PointIdx) (m : Option (Word × Bool))
    {f : UniFrame} (hf : BuiltFor t e f) :
    Moves t (afterConflict (conflictCheck g.entry pts (g.state.withForward rest)) m f).1 := by
  rw [conflictCheck_withForward]
  have hc := conflictCheck_checked h pts
  unfold afterConflict
  split
  · exact refuseGrant_moves hq hc _ _
  · exact startInHand_moves hq ht hm hc m hf

/-- R110: a RELEASE marks its claim before its WRITE is built. -/
theorem afterReleaseConflict_moves (h : Checked t e g) {it : Item} (hop : e.op = .release it) :
    Moves t (afterReleaseConflict (conflictCheck g.entry [it.point] (g.state.withForward rest)) it).1 := by
  rw [conflictCheck_withForward]
  have hc := conflictCheck_checked h [it.point]
  unfold afterReleaseConflict
  split
  · exact refuseGrant_moves hq hc _ _
  · have hmark : Checked t e { conflictCheck g.entry [it.point] g.state with
        state := (conflictCheck g.entry [it.point] g.state).state.mapClaim
          (conflictCheck g.entry [it.point] g.state).entry.node it.point fun c => { c with releasing := true } } :=
      ⟨mapClaim_moves _ _ hc.moves fun _ => ⟨rfl, rfl⟩, hc.forward, hc.nodes, hc.dbc, hc.mode, hc.node, hc.op⟩
    exact startInHand_moves hq ht hm hmark none (by simp [BuiltFor, hop])

theorem grantEntry_moves : Moves t (grantEntry e (t.withForward rest)).1 := by
  have h0 := checked_start t e
  unfold grantEntry
  split
  · cases hop : e.op with
    | read pts => exact startInHand_moves hq ht hm h0 none (by simp [BuiltFor, hop])
    | write items => exact afterConflict_moves hq ht hm h0 _ none (by simp [BuiltFor, hop])
    | modify p o b =>
      dsimp only
      split
      · exact refuseGrant_moves hq h0 _ _
      · next v hv =>
        exact afterConflict_moves hq ht hm h0 _ _ (by simpa [BuiltFor, hop] using ⟨v, hv, rfl⟩)
    | release it =>
      dsimp only
      split
      · exact refuseGrant_moves hq h0 _ _
      · next c hc =>
        rw [brokenCheck_withForward]
        have hb := brokenCheck_checked h0 it.point c
        split
        · exact refuseGrant_moves hq hb _ _
        · exact afterReleaseConflict_moves hq ht hm hb hop
  · exact refuseGrant_moves hq h0 _ _

end Grant

/-! ## The Commit Engine -/

/-- R133, R134: the end of the commit in flight. -/
theorem endCommit_moves {c : Commit} (st : Status) (body : List Byte) (h : Moves s t)
    (hc : t.ce.commit = some c) : Moves s (t.endCommit c.originator st body) := by
  have ha : Moves s (t.answerCommit c.originator st body) := by
    unfold State.answerCommit
    split
    · exact respond_moves _ h
    · exact h
  exact (ha.tail (.commitClosed c (by simpa using hc))).tail .commitTaken

theorem endFailed_moves {c : Commit} (n : NodeIdx) (cause : FailCause) (h : Moves s t)
    (hc : t.ce.commit = some c) : Moves s (t.endFailed c n cause) :=
  endCommit_moves _ _ (dropPending_moves _ h) (by simpa using hc)

theorem failCommit_moves {c : Commit} (n : NodeIdx) (cause : FailCause) (h : Moves s t)
    (hc : t.ce.commit = some c) : Moves s (t.failCommit c n cause) := by
  unfold State.failCommit
  split
  · exact endFailed_moves n cause h hc
  · exact h.tail (.commitMoves c _ hc rfl)

theorem endTake_moves {c : Commit} (tag : Byte) (h : Moves s t) (hc : t.ce.commit = some c) :
    Moves s (t.endTake c tag) := by
  have htake : ∀ l : List StageEntry, Moves s (l.foldl State.takePoint t) ∧
      (l.foldl State.takePoint t).ce = t.ce := fun l =>
    ⟨foldl_induction (fun _ e h => takePoint_moves e h) l t h,
      foldl_keeps State.takePoint State.ce (fun u e => takePoint_ce u e) l t⟩
  obtain ⟨hm, hce⟩ := htake (takeOrder c.order (t.stage c.originator).entries)
  exact endCommit_moves _ _ (dropPending_moves _ hm) (by simpa [hce] using hc)

theorem takeEnded_moves (tag : Byte) (h : Moves s t) : Moves s (t.takeEnded tag) := by
  unfold State.takeEnded
  split
  · next c hc =>
    split
    · exact endTake_moves tag h hc
    · exact h
  · exact h

theorem abandonEnded_moves (tag : Byte) (h : Moves s t) : Moves s (t.abandonEnded tag) := by
  unfold State.abandonEnded
  split
  · next c hc =>
    split
    · split
      · exact endFailed_moves _ _ h hc
      · exact h
    · exact h
    · exact h
  · exact h

theorem clearEnded_moves (h : Moves s t) : Moves s t.clearEnded :=
  (h.tail .clearSent).tail .commitTaken

/-! ## Grants and decisions -/

/-- R35: a decision finds a winner only with the bus FREE, outside HALTED. -/
theorem winner_some {x : Requester × GrantStep} (h : t.winner = some x) :
    t.dbc.txn = none ∧ t.mode ≠ .halted := by
  unfold State.winner at h
  split at h
  · next hf => simpa [State.busFree] using hf
  · exact absurd h (by simp)

/-- What the CE presents as a LOAD is for its commit in flight. -/
theorem commit_of_load {c : Commit} {n : NodeIdx} {tag : Byte} (h : t.cmtWork = some (.load c n tag)) :
    t.ce.commit = some c := by
  unfold State.cmtWork at h
  repeat' split at h
  all_goals simp_all

theorem grant_moves (r : Requester) (ht : t.dbc.txn = none) (hm : t.mode ≠ .halted) :
    Moves t (grant r t).1 := by
  cases r with
  | fwd =>
    show Moves t (grantFwd t).1
    unfold grantFwd
    split
    · exact .refl
    · next e rest hq => exact grantEntry_moves hq ht hm
  | cmt =>
    show Moves t (grantCmt t).1
    unfold grantCmt
    split
    · exact .refl
    · exact .single (.broadGranted _ ht hm)
    · exact .single (.broadGranted _ ht hm)
    · exact .single (.broadGranted _ ht hm)
    · next c n tag hw =>
      split
      · exact .single (.loadGranted _ _ _ ht hm)
      · exact .single (.loadGranted _ _ _ ht hm)
      all_goals exact failCommit_moves _ _ .refl (commit_of_load hw)
  | rnw =>
    show Moves t (grantRnw t).1
    unfold grantRnw
    split
    · exact .refl
    · next o _ =>
      exact (Relation.ReflTransGen.single (Move.renewalRuns { t.rs with lastRenewed := o.node })).tail
        (.renewGranted _ _ ht hm)

theorem decideGrant_moves {x : Requester × GrantStep} (h : Moves s t) (hw : t.winner = some x)
    (r : Requester) (st : GrantStep) : Moves s (t.decideGrant r st).1 := by
  obtain ⟨ht, hm⟩ := winner_some hw
  exact closeEvent_moves _ (endDrain_moves ((h.tail (.grantBooked r st)).trans (grant_moves r ht hm)))

theorem arbitrate_moves (h : Moves s t) : Moves s t.arbitrate :=
  arbitrate_keeps (fun _ r st h hw => decideGrant_moves h hw r st) h

theorem finish_moves (b : State) (h : Moves s t) : Moves s (finish b t) :=
  finish_keeps (fun f _ h => enqueue_moves f h) (fun _ r st h hw => decideGrant_moves h hw r st) b
    (endDrain_moves h)

/-! ## Node health -/

/-- An entry replaced by one whose health stays in its range. -/
theorem setNode_moves {n : NodeIdx} {e : NodeEntry} (h : Moves s t)
    (he : HealthStep t.params (t.node n) e) : Moves s (t.setNode n e) := by
  refine h.tail (.healthChanges (t.setNode n e).nodes fun m => ?_)
  show HealthStep t.params (t.node m) ((t.setNode n e).node m)
  rw [node_setNode]
  split
  · next hnm => exact hnm ▸ he
  · exact ⟨rfl, id, fun _ h => h⟩

/-- R45, R46: the accrual of a node that is LIVE or LAPSED. -/
theorem accrue_of_awake (n : NodeIdx) {e : NodeEntry} (h : e.state = .live ∨ e.state = .lapsed) :
    accrue n e =
      let alt := if e.cls = .relaxed then !e.alternation else e.alternation
      if 8 < e.debt + accrualAmount e then
        ({ e with debt := 8, state := .lapsed, alternation := alt },
          if e.state = .live then some (.lapse n .overdue) else none)
      else ({ e with debt := e.debt + accrualAmount e, alternation := alt }, none) := by
  obtain h | h := h <;> simp only [accrue, h]

/-- R47: the accrual of a SILENT node counts its probe down. -/
theorem accrue_of_silent (n : NodeIdx) {e : NodeEntry} (h : e.state = .silent) :
    accrue n e = ({ e with probe := e.probe - 1 }, none) := by
  simp only [accrue, h]

/-- R45: a node out of service accrues nothing. -/
theorem accrue_of_out_of_service (n : NodeIdx) {e : NodeEntry} (h : e.state = .parked ∨ e.state = .absent) :
    accrue n e = (e, none) := by
  obtain h | h := h <;> simp only [accrue, h]

theorem accrue_health (p : Params) (n : NodeIdx) (e : NodeEntry) : HealthStep p e (accrue n e).1 := by
  have hawake (h : e.state = .live ∨ e.state = .lapsed) : HealthStep p e (accrue n e).1 := by
    rw [accrue_of_awake n h]
    have hsil (he : e.HealthLegal) : e.silence < 3 := by
      obtain h | h := h <;> simpa only [h] using he.2.2
    dsimp only
    split
    · exact ⟨rfl, by simp, fun _ he => ⟨Nat.le_refl 8, he.2.1, hsil he⟩⟩
    · next hd =>
      refine ⟨rfl, id, fun _ he => ⟨Nat.not_lt.mp hd, he.2.1, ?_⟩⟩
      obtain h | h := h <;> simpa only [h] using hsil he
  cases hst : e.state with
  | live => exact hawake (.inl hst)
  | lapsed => exact hawake (.inr hst)
  | silent =>
    rw [accrue_of_silent n hst]
    exact ⟨rfl, id, fun _ he => ⟨he.1, (Nat.sub_le _ _).trans he.2.1, he.2.2⟩⟩
  | parked => rw [accrue_of_out_of_service n (.inl hst)]; exact ⟨rfl, id, fun _ he => he⟩
  | absent => rw [accrue_of_out_of_service n (.inr hst)]; exact ⟨rfl, id, fun _ he => he⟩

/-- R55, R56, R60: the entry after a valid reply. -/
theorem healthReply_health {p : Params} {e : NodeEntry} (r a : Bool) (c : HoldClass) :
    HealthStep p e (healthReply p.wakeDebits r a c e) := by
  refine ⟨rfl, ?_, fun hp he => ?_⟩
  · simp only [healthReply]
    split <;> simp
  · have hw : p.wakeDebits ≤ 3 := hp.2.2.2.2.1.2
    obtain ⟨hd, hpr, _⟩ := he
    have hdebt : (if e.state = .silent then max e.debt p.wakeDebits else e.debt) ≤ 8 := by split <;> omega
    refine ⟨?_, ?_, ?_⟩
    · simp only [healthReply]
      split <;> omega
    · simp only [healthReply]
      split <;> omega
    · by_cases hc : c = .dropped <;> simp [healthReply, hc]

theorem health_moves (n : NodeIdx) (r : Bool) (o : DropOutcome) (h : Moves s t) :
    Moves s (t.health n r o) := by
  have hvalid : ∀ (a : Bool) (c : HoldClass), Moves s (t.healthValid n r a c) := by
    intro a c
    by_cases hin : (t.node n).state.inService = true
    · rw [healthValid_of_inService r a c hin]
      exact offer?_moves _ (setNode_moves h (healthReply_health r a c))
    · cases hst : (t.node n).state with
      | parked =>
        rw [healthValid_of_parked r a c hst]
        exact setNode_moves h ⟨rfl, id, fun _ he => he⟩
      | absent => simpa only [State.healthValid, hst] using h
      | _ => simp [hst, NodeState.inService] at hin
  have hnone : Moves s (t.healthNoReply n r) := by
    have hcounted (hst : (t.node n).state = .live ∨ (t.node n).state = .lapsed) :
        Moves s (t.healthNoReply n r) := by
      rw [healthNoReply_of_live_or_lapsed r hst]
      split
      · refine offer_moves _ (setNode_moves h ⟨rfl, by simp, fun _ he => ?_⟩)
        exact ⟨he.1, Nat.le_refl 8, rfl⟩
      · refine setNode_moves h ⟨rfl, id, fun _ he => ⟨he.1, he.2.1, ?_⟩⟩
        have hsil := he.2.2
        obtain hst | hst := hst <;> simp only [hst] at hsil ⊢ <;> omega
    cases hst : (t.node n).state with
    | live => exact hcounted (.inl hst)
    | lapsed => exact hcounted (.inr hst)
    | silent =>
      rw [healthNoReply_of_silent r hst]
      split
      · exact setNode_moves h ⟨rfl, id, fun _ he => ⟨he.1, Nat.le_refl 8, he.2.2⟩⟩
      · exact h
    | parked => rw [healthNoReply_of_parked r hst]; exact h
    | absent => simpa only [State.healthNoReply, hst] using h
  cases o with
  | accepted c vs => exact hvalid true c
  | refused c => exact hvalid false c
  | noReply => exact hnone

end Sys2Proof.Machine
end

section
/-! SUPPORT. Outcomes, phase events and the passing of time as changes of the state (R27 to R32, R42, R43). -/

namespace Sys2Proof.Machine

variable {s t : State}

/-! ## The outcome of a transaction -/

/-- The bus is FREE and the request in hand is gone (R80). -/
def State.handDone (s : State) : State := { s.freeBus with pou := { s.pou with inHand := none } }

theorem handDone_of_none (h : s.pou.inHand = none) : s.handDone = s.freeBus := by
  have hp : ({ s.pou with inHand := none } : PointUnit) = s.pou := by rw [← h]
  simp [State.handDone, State.freeBus, hp]

theorem offer_handDone (b : ExcBody) : s.handDone.offer b = (s.offer b).handDone := by
  have hq : s.handDone.exq = s.exq := rfl
  have hc : s.handDone.count .exceptionsLost = (s.count .exceptionsLost).handDone := by
    by_cases h : s.counters.get .exceptionsLost = 0xFFFF#16 <;>
      simp [State.count, State.handDone, State.raise, State.freeBus, h]
  by_cases hl : s.exq.queue.length < 32
  · by_cases he : s.exq.queue.isEmpty = true <;>
      simp [State.offer, hl, he, State.raise, State.handDone, State.freeBus]
  · simp only [State.offer, hq, if_neg hl, hc]
    rfl

theorem breakClaim_handDone (n : NodeIdx) (p : PointIdx) (c : BreakCause) :
    s.handDone.breakClaim n p c = (s.breakClaim n p c).handDone := by
  have hon : s.handDone.claimOn n p = s.claimOn n p := rfl
  cases hc : s.claimOn n p with
  | none => simp only [State.breakClaim, hon, hc]
  | some k =>
    by_cases hi : k.state = .intact
    · simp only [State.breakClaim, hon, hc, if_pos hi, ← offer_handDone]
      rfl
    · simp only [State.breakClaim, hon, hc, if_neg hi]

theorem applyWrite_handDone (n : NodeIdx) (items : List Item) :
    s.handDone.applyWrite n items = (s.applyWrite n items).handDone :=
  List.foldl_hom State.handDone fun u it =>
    breakClaim_handDone (s := u.setPoint n it.point { u.point n it.point with active := some it.value }) _ _ _

theorem releaseOutcome_handDone (e : FwdEntry) (o : DropOutcome) :
    s.handDone.releaseOutcome e o = (s.releaseOutcome e o).handDone := by
  unfold State.releaseOutcome
  split
  · split <;> rfl
  all_goals rfl

theorem releaseOutcome_dbc (e : FwdEntry) (o : DropOutcome) : (s.releaseOutcome e o).dbc = s.dbc := by
  unfold State.releaseOutcome
  split
  · split <;> rfl
  all_goals rfl

theorem releaseOutcome_moves (e : FwdEntry) (o : DropOutcome) (h : Moves s t) :
    Moves s (t.releaseOutcome e o) := by
  unfold State.releaseOutcome
  split
  · split
    · exact claimsFiltered_moves _ h
    · exact claimsMapped_moves h fun c => by split <;> simp
    · exact claimsMapped_moves h fun c => by split <;> simp
  all_goals exact h

variable {u : UniTxn} (ht : t.dbc.txn = some (.uni u))

include ht

/-- The end of a transaction of the POU. -/
theorem handDone_moves (h : Moves s t) (hf : u.frame.ofPou = true) : Moves s t.handDone :=
  h.tail (.handFreed u ht hf)

/-- The end of a transaction that is not the POU's. -/
theorem freeBus_moves (h : Moves s t) (hf : u.frame.ofPou = false) : Moves s t.freeBus :=
  h.tail (.busFreed fun v hv => by
    obtain rfl : u = v := Txn.uni.inj (Option.some.inj (ht.symm.trans hv))
    exact hf)

/-- R80, R87, R112: the outcome of a WRITE. -/
theorem writeOutcome_moves {items : List Item} (hf : u.frame = .write items) (o : DropOutcome)
    (h : Moves s t) : Moves s (t.freeBus.writeOutcome u.node items o) := by
  have hpou : u.frame.ofPou = true := by rw [hf]; rfl
  cases hi : t.pou.inHand with
  | none =>
    have hout : t.freeBus.writeOutcome u.node items o = t.freeBus := by
      simp only [State.writeOutcome, freeBus_pou, hi]
    rw [hout, ← handDone_of_none hi]
    exact handDone_moves ht h hpou
  | some i =>
    have hr := releaseOutcome_moves i.entry o h
    have htr : (t.releaseOutcome i.entry o).dbc.txn = some (.uni u) := by rw [releaseOutcome_dbc, ht]
    have hdone : Moves s (t.handDone.releaseOutcome i.entry o) := by
      rw [releaseOutcome_handDone]
      exact handDone_moves htr hr hpou
    unfold State.writeOutcome
    simp only [freeBus_pou, hi]
    refine respond_moves _ ?_
    cases o with
    | accepted c vs =>
      show Moves s ((t.handDone.releaseOutcome i.entry (.accepted c vs)).applyWrite u.node items)
      rw [releaseOutcome_handDone, applyWrite_handDone]
      exact handDone_moves (by simpa using htr) (applyWrite_moves hf hr htr) hpou
    | refused c => exact hdone
    | noReply => exact hdone

/-- R80, R92: the outcome of a READ. -/
theorem readOutcome_moves {pts : List PointIdx} (hf : u.frame = .read pts) (o : DropOutcome)
    (h : Moves s t) : Moves s (t.freeBus.readOutcome u.node pts o) := by
  have hdone : Moves s t.handDone := handDone_moves ht h (by rw [hf]; rfl)
  cases hi : t.pou.inHand with
  | none =>
    have hout : t.freeBus.readOutcome u.node pts o = t.freeBus := by
      simp only [State.readOutcome, freeBus_pou, hi]
    rw [hout, ← handDone_of_none hi]
    exact hdone
  | some i =>
    simp only [State.readOutcome, freeBus_pou, hi]
    exact respond_moves _ hdone

omit ht in
/-- R53: the outcome of a RENEW. -/
theorem renewOutcome_moves (n : NodeIdx) (o : DropOutcome) (h : Moves s t) :
    Moves s (t.renewOutcome n o) := by
  unfold State.renewOutcome
  split
  · split
    · exact count_moves _ h
    · exact offer_moves _ h
    · exact h
  · exact h

/-- R131, R132: the outcome of a LOAD. -/
theorem loadOutcome_moves {tag : Byte} {items : List Item} (hf : u.frame = .load tag items)
    (o : DropOutcome) (h : Moves s t) : Moves s (t.freeBus.loadOutcome u.node tag items o) := by
  have hpou : u.frame.ofPou = false := by rw [hf]; rfl
  have hfree : Moves s t.freeBus := freeBus_moves ht h hpou
  cases hc : t.ce.commit with
  | none => simpa only [State.loadOutcome, freeBus_ce, hc] using hfree
  | some c =>
    simp only [State.loadOutcome, freeBus_ce, hc]
    split
    · cases o with
      | accepted k vs =>
        have hhom : t.freeBus.setPendings u.node items = (t.setPendings u.node items).freeBus :=
          List.foldl_hom State.freeBus fun _ _ => rfl
        have hloaded : Moves s (t.freeBus.setPendings u.node items) := by
          rw [hhom]
          exact freeBus_moves (by simpa using ht) (setPendings_moves hf h ht) hpou
        exact hloaded.tail (.commitMoves c (c.advance u.node) (by simpa using hc) rfl)
      | refused k => exact failCommit_moves _ _ hfree hc
      | noReply => exact failCommit_moves _ _ hfree hc
    · exact hfree

/-- R28, R30, R32: an outcome handed over. -/
theorem handOver_moves (o : DropOutcome) (h : Moves s t) : Moves s (t.handOver u o) := by
  refine health_moves _ _ _ ?_
  cases hf : u.frame with
  | write items => rw [ownerOutcome_of_write hf]; exact writeOutcome_moves ht hf o h
  | read pts => rw [ownerOutcome_of_read hf]; exact readOutcome_moves ht hf o h
  | renew items =>
    rw [ownerOutcome_of_renew hf]
    exact renewOutcome_moves _ o (freeBus_moves ht h (by rw [hf]; rfl))
  | load tag items => rw [ownerOutcome_of_load hf]; exact loadOutcome_moves ht hf o h

omit ht

/-! ## The events of the drop bus -/

theorem dropReceive_moves (f : List Byte) (h : Moves s t) : Moves s (t.dropReceive f) := by
  unfold State.dropReceive
  split
  · exact finish_moves _ (count_moves _ h)
  · exact h
  · next u hu =>
    split
    · exact h
    · split
      · exact finish_moves _ (count_moves _ h)
      · exact finish_moves _ (handOver_moves hu _ h)

theorem windowExpire_moves (h : Moves s t) : Moves s t.windowExpire := by
  unfold State.windowExpire
  split
  · next u hu =>
    split
    · exact finish_moves _ (handOver_moves (by simpa using hu) _ (count_moves _ h))
    · exact h
  · exact h
  · exact h

theorem unicastEnd_moves (h : Moves s t) : Moves s t.unicastEnd := by
  unfold State.unicastEnd
  split
  · next u hu =>
    split
    · exact h.tail (.uniRuns u _ hu rfl rfl)
    · exact h
  · exact h
  · exact h

/-- The end of a broadcast frees the bus. -/
theorem broadEnd_moves {f : BroadFrame} (h : Moves s t) (ht : t.dbc.txn = some (.broad f)) :
    Moves s t.freeBus :=
  h.tail (.busFreed fun v hv => by simp [ht] at hv)

theorem takeTransmitted_moves (h : Moves s t) : Moves s t.takeTransmitted := by
  unfold State.takeTransmitted
  split
  · next tag ht => exact finish_moves _ (takeEnded_moves _ (broadEnd_moves h ht))
  all_goals exact h

theorem abandonTransmitted_moves (h : Moves s t) : Moves s t.abandonTransmitted := by
  unfold State.abandonTransmitted
  split
  · next tag ht =>
    split
    · exact h
    · exact finish_moves _ (abandonEnded_moves _ (broadEnd_moves h ht))
  all_goals exact h

theorem clearTransmitted_moves (h : Moves s t) : Moves s t.clearTransmitted := by
  unfold State.clearTransmitted
  split
  · next tag ht =>
    split
    · exact finish_moves _ (clearEnded_moves (broadEnd_moves h ht))
    · exact h
  all_goals exact h

theorem idleWindowReached_moves (h : Moves s t) : Moves s t.idleWindowReached := by
  unfold State.idleWindowReached
  split
  · exact arbitrate_moves (h.tail (.idleTimerRuns _))
  · exact h

/-! ## Phase events and time -/

theorem accrueAll_moves (p : Fin 4) (h : Moves s t) : Moves s (t.accrueAll p) :=
  foldl_induction (P := Moves s) (fun _ n h => setNode_moves h (accrue_health _ n _)) _ _ h

theorem accruePhase_moves (h : Moves s t) : Moves s t.accruePhase := by
  unfold State.accruePhase
  split
  · exact h
  · exact accrueAll_moves _ h

theorem ageClaims_moves (h : Moves s t) : Moves s t.ageClaims := by
  have hm : Moves s { t with claims := t.claims.map Claim.aged } :=
    claimsMapped_moves h fun c => by unfold Claim.aged; split <;> simp
  exact claimsFiltered_moves _ hm

theorem agePhase_moves (h : Moves s t) : Moves s t.agePhase := by
  unfold State.agePhase
  split
  · exact (ageClaims_moves h).tail .stagesAge
  · exact h

theorem phaseEvent_moves (h : Moves s t) : Moves s t.phaseEvent :=
  finish_moves _ (offerGroups_moves _ _ _ (agePhase_moves (accruePhase_moves (h.tail (.renewalRuns _)))))

theorem busTimer_moves (idleNow : Bool) (h : Moves s t) : Moves s (t.busTimer idleNow) := by
  unfold State.busTimer
  split
  · exact windowExpire_moves h
  · split
    · exact arbitrate_moves h
    · exact h

/-- 10 µs on the three timers. -/
theorem advanceTimers_moves (h : Moves s t) : Moves s t.advanceTimers := by
  let r : Renewal := { t.rs with quarterLeft := t.rs.quarterLeft - 1 }
  let k : Nat := if t.busFree then min (t.dbc.idleTimer + 1) 255 else t.dbc.idleTimer
  let timed : State := { t with rs := r, dbc := { t.dbc with idleTimer := k } }
  have hr : Moves s timed := (h.tail (.renewalRuns r)).tail (.idleTimerRuns k)
  cases hx : t.dbc.txn with
  | none =>
    have he : t.advanceTimers = timed := by
      simp only [State.advanceTimers, hx, timed, r, k]
    exact he ▸ hr
  | some x =>
    cases x with
    | uni u =>
      let v : UniTxn := if u.cond = .awaiting then { u with windowLeft := u.windowLeft - 1 } else u
      have he : t.advanceTimers = { timed with dbc := { timed.dbc with txn := some (.uni v) } } := by
        simp only [State.advanceTimers, hx, timed, r, k, v]
        split <;> rfl
      have hv : v.node = u.node ∧ v.frame = u.frame := by
        simp only [v]
        split <;> exact ⟨rfl, rfl⟩
      rw [he]
      exact hr.tail (.uniRuns u v hx hv.1 hv.2)
    | broad f =>
      have he : t.advanceTimers = timed := by
        simp only [State.advanceTimers, hx, timed, r, k]
      exact he ▸ hr

theorem tick_moves (s : State) : Moves s s.tick := by
  have h0 : Moves s s.advanceTimers := advanceTimers_moves .refl
  unfold State.tick
  split
  · exact .refl
  · dsimp only
    split
    · split
      · exact busTimer_moves _ (phaseEvent_moves (h0.tail (.freeValueUsed _)))
      · exact phaseEvent_moves (busTimer_moves _ (h0.tail (.freeValueUsed _)))
    · split
      · exact phaseEvent_moves h0
      · split
        · exact busTimer_moves _ h0
        · exact h0

end Sys2Proof.Machine
end

section
/-! SUPPORT. Requests and commands as changes of the state; and the rule for what every step keeps. -/

namespace Sys2Proof.Machine

variable {s t : State}

/-! ## Queues emptied with answers (R139, R140, R161) -/

theorem respond_withStages (r : Response) (v : Vector Stage 4) :
    ({ t with stages := v } : State).respond r = { t.respond r with stages := v } := by
  by_cases hc : t.tp.closing = true
  · simp [State.respond, hc]
  · by_cases hl : t.tp.queue.length < 32
    · simp [State.respond, hc, hl, State.enqueue]
    · by_cases hw : t.counters.get .responsesLost = 0xFFFF#16 <;>
        simp [State.respond, hc, hl, State.count, State.raise, hw]

theorem responds_withStages (rs : List Response) (v : Vector Stage 4) :
    rs.foldl (fun u r => u.respond r) ({ t with stages := v } : State) =
      { rs.foldl (fun u r => u.respond r) t with stages := v } :=
  List.foldl_hom (fun u : State => { u with stages := v }) fun _ r => respond_withStages r v

/-- The step of a fold that answers and changes stages, and does nothing else. -/
def AnswersAndStages (f : State → Originator → State) : Prop :=
  ∀ (t : State) (o : Originator), ∃ rs : List Response,
    f t o = { rs.foldl (fun u r => u.respond r) t with stages := (f t o).stages }

/-- A fold of such steps answers and changes stages, and does nothing else. -/
theorem foldl_answers {f : State → Originator → State} (hf : AnswersAndStages f) (l : List Originator) :
    ∀ t : State, ∃ rs : List Response,
      l.foldl f t = { rs.foldl (fun u r => u.respond r) t with stages := (l.foldl f t).stages } := by
  induction l with
  | nil => exact fun t => ⟨[], rfl⟩
  | cons o l ih =>
    intro t
    obtain ⟨rs, hrs⟩ := hf t o
    obtain ⟨rs', hrs'⟩ := ih (f t o)
    refine ⟨rs ++ rs', ?_⟩
    rw [List.foldl_cons, List.foldl_append]
    conv_lhs => rw [hrs', hrs, responds_withStages]
    rw [← hrs]

theorem answerCommit_responds (o : Originator) (st : Status) (body : List Byte) :
    ∃ rs : List Response, t.answerCommit o st body = rs.foldl (fun u r => u.respond r) t := by
  cases h : (t.stage o).request with
  | none => exact ⟨[], by simp only [State.answerCommit, h, List.foldl_nil]⟩
  | some tag => exact ⟨[_], answerCommit_of_request h st body⟩

theorem abortStage_answers : AnswersAndStages State.abortStage := by
  intro t o
  obtain ⟨rs, hrs⟩ := answerCommit_responds (t := t) o .aborted []
  exact ⟨rs, by rw [← hrs]; rfl⟩

theorem reopenStage_answers : AnswersAndStages State.reopenStage := by
  intro t o
  obtain ⟨rs, hrs⟩ := answerCommit_responds (t := t) o .offline []
  exact ⟨rs, by rw [← hrs]; rfl⟩

theorem responds_ce (rs : List Response) (t : State) :
    (rs.foldl (fun u r => u.respond r) t).ce = t.ce :=
  foldl_keeps (fun (u : State) r => u.respond r) State.ce (fun u r => respond_ce u r) rs t

theorem responds_stage (rs : List Response) (t : State) (o : Originator) :
    (rs.foldl (fun u r => u.respond r) t).stage o = t.stage o :=
  foldl_keeps (fun (u : State) r => u.respond r) (fun u => u.stage o) (fun u r => respond_stage u r o) rs t

/-- R161 step 3: the commit queue emptied by a FLUSH. -/
theorem abortQueued_moves (h : Moves s t) : Moves s t.abortQueued := by
  obtain ⟨rs, hrs⟩ := foldl_answers abortStage_answers t.ce.queue t
  have ha := responds_moves rs h
  unfold State.abortQueued
  rw [hrs]
  refine ha.tail (.queueAborted _ fun o => ?_)
  rw [responds_ce, responds_stage]
  exact abortStages_stage t.ce.queue o t

/-- R139: the stages named are reopened, however often they are named. -/
theorem reopenStages_stage_mem (l : List Originator) (o : Originator) : ∀ t : State,
    (o ∈ l → (l.foldl State.reopenStage t).stage o =
      { t.stage o with state := .opened, life := some t.params.stageTimeout, request := none }) ∧
    (o ∉ l → (l.foldl State.reopenStage t).stage o = t.stage o) := by
  induction l with
  | nil => simp
  | cons p l ih =>
    intro t
    obtain ⟨hin, hout⟩ := ih (t.reopenStage p)
    have hp := reopenStage_stage t p o
    rw [List.foldl_cons]
    refine ⟨fun _ => ?_, fun hn => ?_⟩
    · by_cases hl : o ∈ l
      · rw [hin hl, hp, reopenStage_params]
        split
        · next he => rw [he]
        · rfl
      · obtain rfl : o = p := by simp_all
        rw [hout hl, hp, if_pos rfl]
    · obtain ⟨hne, hl⟩ := not_or.mp (mt List.mem_cons.mpr hn)
      rw [hout hl, hp, if_neg hne]

/-- R139: the commit queue emptied at DRAINING entry. -/
theorem reopenQueued_moves (h : Moves s t) : Moves s t.reopenQueued := by
  obtain ⟨rs, hrs⟩ := foldl_answers reopenStage_answers t.ce.queue t
  have ha := responds_moves rs h
  have hst := fun o => reopenStages_stage_mem t.ce.queue o t
  unfold State.reopenQueued
  rw [hrs]
  refine ha.tail (.queueReopened _ (fun o ho => ?_) fun o ho => ?_)
  · rw [responds_ce] at ho
    rw [responds_stage]
    exact ⟨_, (hst o).1 ho⟩
  · rw [responds_ce] at ho
    rw [responds_stage]
    exact (hst o).2 ho

/-- R77: the forward queue emptied. -/
theorem answerForward_moves (st : Status) (h : Moves s t) : Moves s (t.answerForward st) :=
  (foldl_induction (P := Moves s) (fun _ e h => respond_moves (e.reply st) h) _ _ h).tail .forwardCleared

/-- R161 step 2: the commit in flight ended by a FLUSH. -/
theorem abortCommit_moves (h : Moves s t) : Moves s t.abortCommit := by
  unfold State.abortCommit
  split
  · next c hc =>
    obtain ⟨rs, hrs⟩ := answerCommit_responds (t := t.dropPending (t.stage c.originator).entries)
      c.originator .aborted []
    dsimp only [State.abortStage]
    rw [hrs]
    refine (responds_moves rs (dropPending_moves _ h)).tail (.commitClosed c ?_)
    rw [responds_ce, dropPending_ce, hc]
  · exact h

theorem flushWork_moves (h : Moves s t) : Moves s t.flushWork :=
  claims_moves ((abortQueued_moves (abortCommit_moves (answerForward_moves _ h))).tail .openStagesClosed)
    (List.nil_sublist _)

/-! ## The mode -/

/-- The state in this mode. -/
def State.withMode (m : Mode) (s : State) : State := { s with mode := m }

theorem respond_withMode (m : Mode) (r : Response) :
    (t.withMode m).respond r = (t.respond r).withMode m := by
  by_cases hc : t.tp.closing = true
  · simp [State.respond, State.withMode, hc]
  · by_cases hl : t.tp.queue.length < 32
    · simp [State.respond, State.withMode, hc, hl, State.enqueue]
    · by_cases hw : t.counters.get .responsesLost = 0xFFFF#16 <;>
        simp [State.respond, State.withMode, hc, hl, State.count, State.raise, hw]

theorem reopenStage_withMode (m : Mode) (o : Originator) :
    (t.withMode m).reopenStage o = (t.reopenStage o).withMode m := by
  have ha : (t.withMode m).answerCommit o .offline [] = (t.answerCommit o .offline []).withMode m := by
    have hst : (t.withMode m).stage o = t.stage o := rfl
    cases h : (t.stage o).request with
    | none => simp only [State.answerCommit, hst, h]
    | some tag => simp only [State.answerCommit, hst, h, respond_withMode]
  unfold State.reopenStage
  rw [ha]
  rfl

/-- R156: the mode is not looked at while the queues are emptied. -/
theorem enterDraining_eq : t.enterDraining = (t.answerForward .offline).reopenQueued.withMode .draining := by
  have hf : (t.withMode .draining).answerForward .offline =
      (t.answerForward .offline).withMode .draining := by
    unfold State.answerForward
    rw [show (t.withMode .draining).pou.forward = t.pou.forward from rfl,
      List.foldl_hom (State.withMode .draining) fun _ e => respond_withMode .draining (e.reply .offline)]
    rfl
  show ((t.withMode .draining).answerForward .offline).reopenQueued = _
  rw [hf]
  unfold State.reopenQueued
  rw [show ((t.answerForward .offline).withMode .draining).ce.queue = (t.answerForward .offline).ce.queue
    from rfl, List.foldl_hom (State.withMode .draining) fun _ o => reopenStage_withMode .draining o]
  rfl

theorem enterDraining_moves (h : Moves s t) (hm : t.mode = .run) : Moves s t.enterDraining := by
  rw [enterDraining_eq]
  refine (reopenQueued_moves (answerForward_moves .offline h)).tail (.drainEntered ?_ ?_ ?_)
  · simpa using hm
  · rw [reopenQueued_pou, answerForward_pou]
  · rw [reopenQueued_ce]

theorem wakeEntry_health (p : Params) (e : NodeEntry) : HealthStep p e (wakeEntry p.wakeDebits e) := by
  have hawake (hst : e.state = .live ∨ e.state = .lapsed) : HealthStep p e (wakeEntry p.wakeDebits e) := by
    have hw : wakeEntry p.wakeDebits e = { e with debt := max e.debt p.wakeDebits } := by
      obtain hst | hst := hst <;> simp only [wakeEntry, hst]
    rw [hw]
    refine ⟨rfl, id, fun hp he => ⟨?_, he.2.1, ?_⟩⟩
    · have hwake : p.wakeDebits ≤ 3 := hp.2.2.2.2.1.2
      exact Nat.max_le.mpr ⟨he.1, by omega⟩
    · have hs := he.2.2
      obtain hst | hst := hst <;> simpa only [hst] using hs
  cases hst : e.state with
  | live => exact hawake (.inl hst)
  | lapsed => exact hawake (.inr hst)
  | _ => simp only [wakeEntry, hst]; exact ⟨rfl, id, fun _ he => he⟩

theorem runEntry_moves (h : Moves s t) (hm : t.mode = .halted) : Moves s t.runEntry := by
  have hw : Moves s t.wakeAll := h.tail (.healthChanges t.wakeAll.nodes fun n => by
    show HealthStep t.params (t.node n) (t.wakeAll.node n)
    rw [node_wakeAll]
    exact wakeEntry_health _ _)
  exact hw.tail (.runEntered hm)

theorem flushMode_moves (h : Moves s t) : Moves s t.flushMode := by
  unfold State.flushMode
  split
  · next hm => exact endDrain_moves (enterDraining_moves h hm)
  · exact endDrain_moves h
  · exact h

theorem decideMode_moves (rq : Request) (m : ModeRequest) : Moves s (decideMode rq m s) := by
  unfold decideMode
  split
  · next hm => exact arbitrate_moves (answer_moves _ _ (runEntry_moves .refl hm))
  · next hm => exact finish_moves _ (respond_moves _ (endDrain_moves (enterDraining_moves .refl hm)))
  all_goals exact answer_moves _ _ .refl

/-! ## What a request passes -/

theorem malformed_moves (kind : Byte) (rq : Request) (h : Moves s t) : Moves s (malformed kind rq t) :=
  answer_moves _ _ (count_moves _ h)

section Frames

variable {α : Type} {k : ReqKind} {rd : List Byte → Option α} {rq : Request}

theorem nodeRequest_moves {act : NodeIdx → α → State → State}
    (ha : ∀ n a, ForNode rd rq n a → Moves s (act n a s)) : Moves s (nodeRequest k rd rq act s) := by
  unfold nodeRequest
  split
  · split
    · next n a hn hb => exact ha n a ⟨hn, hb⟩
    · exact malformed_moves _ _ .refl
  · exact .refl

theorem segmentRequest_moves {act : α → State → State} (ha : ∀ a, Moves s (act a s)) :
    Moves s (segmentRequest k rd rq act s) :=
  segmentRequest_keeps .refl (malformed_moves _ _ .refl) ha

theorem managementRequest_moves {act : α → State → State} (ha : ∀ a, Moves s (act a s)) :
    Moves s (managementRequest k rd rq act s) :=
  segmentRequest_moves fun a => by
    split
    · exact ha a
    · exact answer_moves _ _ .refl

/-- R70: what a request has passed that no check refuses. -/
theorem arrivalCheck_none {n : NodeIdx} {pts : List PointIdx} {bit : Option (PointIdx × Fin 16)}
    (h : arrivalCheck s k n pts bit = none) :
    (k.forwarded = true → s.mode = .run) ∧ (∀ p ∈ pts, (s.point n p).width.isSome = true) ∧
      ∀ p b, bit = some (p, b) → badBit (s.point n p) b = false := by
  unfold arrivalCheck at h
  split_ifs at h with ho hs hu
  refine ⟨fun hk => by simpa [hk] using ho, fun p hp => ?_, fun p b hb => ?_⟩
  · by_contra hw
    exact hu (List.any_eq_true.mpr ⟨p, hp, by simpa using hw⟩)
  · subst hb
    by_contra hbad
    simp [hbad] at h

theorem afterArrivalCheck_moves {n : NodeIdx} {pts : List PointIdx} {bit : Option (PointIdx × Fin 16)}
    {go : State → State}
    (hgo : arrivalCheck s k n pts bit = none → Moves s (go s)) :
    Moves s (afterArrivalCheck k rq n pts bit go s) := by
  unfold afterArrivalCheck
  split
  · exact answer_moves _ _ .refl
  · next hc => exact hgo hc

/-- A value that does not exceed its point's width fits it. -/
theorem fitsPoint_of_not_exceeds {n : NodeIdx} {it : Item}
    (hw : (s.point n it.point).width.isSome = true) (h : itemExceeds (s.node n) it = false) :
    FitsPoint s n it.point it.value := by
  obtain ⟨w, hw⟩ := Option.isSome_iff_exists.mp hw
  refine ⟨w, hw, ?_⟩
  rw [show s.point n it.point = (s.node n).point it.point from rfl] at hw
  simpa [itemExceeds, hw, exceeds] using h

/-- R95: a value let through fits its point. -/
theorem fitsPoint_truncateItem {n : NodeIdx} {it : Item}
    (hw : (s.point n it.point).width.isSome = true) :
    FitsPoint s n (truncateItem (s.node n) it).point (truncateItem (s.node n) it).value := by
  rw [truncateItem_eq hw]
  obtain ⟨w, hw⟩ := Option.isSome_iff_exists.mp hw
  refine ⟨w, hw, ?_⟩
  simp only [hw, Option.getD_some, BitVec.toNat_ofNat]
  exact (Nat.mod_le _ _).trans_lt (Nat.mod_lt _ (Nat.two_pow_pos w))

/-- R73, R95: after the OVERRANGE check the items name the same points, and every value fits. -/
theorem overrangeCheck_moves {n : NodeIdx} {items : List Item} {go : List Item → CondSet → State → State}
    (hw : ∀ it ∈ items, (s.point n it.point).width.isSome = true)
    (hgo : ∀ its passed, its.map Item.point = items.map Item.point →
      (∀ it ∈ its, FitsPoint s n it.point it.value) → Moves s (go its passed s)) :
    Moves s (overrangeCheck k rq n items go s) := by
  unfold overrangeCheck
  split
  · next hf =>
    refine hgo items {} rfl fun it hit => fitsPoint_of_not_exceeds (hw it hit) ?_
    simpa using List.find?_eq_none.mp hf it hit
  · split
    · exact respond_moves _ (potentRefusal_moves _ _ _ _ _ _ .refl)
    · refine hgo _ _ ?_ fun it hit => ?_
      · rw [List.map_map]
        exact List.map_congr_left fun it hit => by
          rw [Function.comp_apply, truncateItem_eq (hw it hit)]
      · obtain ⟨i, hi, rfl⟩ := List.mem_map.mp hit
        exact fitsPoint_truncateItem (hw i hi)

/-- R73, R75, R76: the joining of an entry that fits. -/
theorem joinForward_moves {n : NodeIdx} {op : NodeOp} (passed : CondSet) (hm : s.mode = .run)
    (hf : op.FitsNode s n) : Moves s (s.joinForward k rq n op passed) := by
  unfold State.joinForward
  split
  · exact respond_moves _ (count_moves _ .refl)
  · next hfull =>
    have hp := passOverrange_moves passed (.refl : Moves s s)
    have hpt : ∀ (n : NodeIdx) (p : PointIdx), (s.passOverrange passed).point n p = s.point n p :=
      point_of_same_nodes (passOverrange_nodes s passed)
    refine hp.tail (.entryJoins
      { originator := rq.originator, tag := rq.tag, node := n, op := op, passed := passed } ?_ ?_ ?_)
    · simpa using hm
    · simpa [State.forwardFull] using hfull
    · cases op <;> simpa [NodeOp.FitsNode, FitsPoint, hpt] using hf

end Frames

end Sys2Proof.Machine
end

section
/-! SUPPORT. Every command as changes of the state, and the rule for what every step keeps. -/

namespace Sys2Proof.Machine

variable {s t : State} (rq : Request)

/-! ## Requests to nodes -/

/-- A list body names at least one item, and no point twice (R68). -/
theorem items_of_body {n : NodeIdx} {items : List Item} (h : ForNode readItemsBody rq n items) :
    items ≠ [] ∧ (items.map Item.point).Nodup := by
  obtain ⟨b, _, hb⟩ := Option.bind_eq_some_iff.mp h.2
  obtain ⟨hl, -, hn, -⟩ := (readCounted_iff (p := fun _ => True) (f := itemBytes)
    (fun n l b => by simpa using readItems_iff n l b) items b).mp hb
  exact ⟨List.ne_nil_of_length_pos hl, hn⟩

theorem writeRequest_moves : Moves s (writeRequest rq s) :=
  nodeRequest_moves fun n items _ => afterArrivalCheck_moves fun hc => by
    obtain ⟨hm, hw, -⟩ := arrivalCheck_none hc
    refine finish_moves _ (overrangeCheck_moves (fun it hit => hw _ (List.mem_map_of_mem hit)) ?_)
    exact fun its passed _ hfit => joinForward_moves passed (hm rfl) hfit

theorem modifyRequest_moves : Moves s (modifyRequest rq s) :=
  nodeRequest_moves fun n m _ => afterArrivalCheck_moves fun hc => by
    obtain ⟨hm, hw, hb⟩ := arrivalCheck_none hc
    refine finish_moves _ (joinForward_moves {} (hm rfl) ?_)
    obtain ⟨w, hw⟩ := Option.isSome_iff_exists.mp (hw m.1 (List.mem_singleton_self _))
    have hbit := hb m.1 m.2.2 rfl
    exact ⟨w, hw, by simpa [badBit, hw] using hbit⟩

theorem readRequest_moves : Moves s (readRequest rq s) :=
  nodeRequest_moves fun n pts _ => afterArrivalCheck_moves fun hc => by
    obtain ⟨hm, hw, -⟩ := arrivalCheck_none hc
    exact finish_moves _ (joinForward_moves {} (hm rfl) hw)

theorem releaseRequest_moves : Moves s (releaseRequest rq s) :=
  nodeRequest_moves fun n it _ => afterArrivalCheck_moves fun hc => by
    obtain ⟨hm, hw, -⟩ := arrivalCheck_none hc
    refine finish_moves _ (overrangeCheck_moves (fun i hi => hw _ ?_) ?_)
    · rw [List.mem_singleton.mp hi]
      exact List.mem_singleton_self _
    · intro its passed hpts hfit
      obtain ⟨i, rfl⟩ : ∃ i, its = [i] := List.length_eq_one_iff.mp (by simpa using congrArg List.length hpts)
      have hpt : i.point = it.point := by simpa using hpts
      unfold releaseArrival
      split
      · exact respond_moves _ .refl
      · exact joinForward_moves passed (hm rfl) (hfit i (List.mem_singleton_self _))

theorem testRequest_moves : Moves s (testRequest rq s) :=
  nodeRequest_moves fun _ _ _ => afterArrivalCheck_moves fun _ => answer_moves _ _ .refl

theorem claimRequest_moves : Moves s (claimRequest rq s) :=
  nodeRequest_moves fun n p _ => afterArrivalCheck_moves fun _ => by
    unfold decideClaim
    dsimp only
    split
    · split
      · exact answer_moves _ _ (mapClaim_moves n p .refl fun _ => ⟨rfl, rfl⟩)
      · exact answer_moves _ _ .refl
    · next hn =>
      split
      · exact answer_moves _ _ .refl
      · next hl => exact answer_moves _ _ (.single (.claimAdded _ (Nat.not_le.mp hl) hn))

theorem unclaimRequest_moves : Moves s (unclaimRequest rq s) :=
  nodeRequest_moves fun n p _ => afterArrivalCheck_moves fun _ => by
    unfold decideUnclaim
    split
    · exact answer_moves _ _ .refl
    · split
      · exact answer_moves _ _ .refl
      · exact answer_moves _ _ (claimsFiltered_moves _ .refl)

/-- R120, R121: a STAGE of items that fit. -/
theorem decideStage_moves {n : NodeIdx} {items : List Item} (passed : CondSet) (hne : items ≠ [])
    (hnd : (items.map Item.point).Nodup) (hfit : ∀ it ∈ items, FitsPoint s n it.point it.value) :
    Moves s (decideStage rq n items passed s) := by
  have htaken (hg : (s.stage rq.originator).state = .closed ∨ (s.stage rq.originator).state = .opened)
      (h64 : ¬64 < (s.stage rq.originator).entries.length +
        ((s.stage rq.originator).newItems n items).length)
      (hpool : ¬s.poolFree < ((s.stage rq.originator).newItems n items).length) :
      Moves s (s.setStage rq.originator { s.stage rq.originator with
        state := .opened, entries := (s.stage rq.originator).merge n items,
        life := some s.params.stageTimeout }) :=
    .single (.staged _ n items hg hne hnd hfit (Nat.not_lt.mp h64) (Nat.not_lt.mp hpool))
  unfold decideStage
  dsimp only
  split
  · exact respond_moves _ .refl
  · exact respond_moves _ .refl
  all_goals
    next hg =>
    split_ifs with h64 hpool
    · exact respond_moves _ .refl
    · exact respond_moves _ (raise_moves _ (count_moves _ .refl))
    · exact respond_moves _ (passOverrange_moves passed (htaken (by simp [hg]) h64 hpool))

theorem stageRequest_moves : Moves s (stageRequest rq s) :=
  nodeRequest_moves fun n items hb => afterArrivalCheck_moves fun hc => by
    obtain ⟨-, hw, -⟩ := arrivalCheck_none hc
    obtain ⟨hne, hnd⟩ := items_of_body rq hb
    refine closeEvent_moves _ (overrangeCheck_moves (fun it hit => hw _ (List.mem_map_of_mem hit)) ?_)
    intro its passed hpts hfit
    refine decideStage_moves rq passed ?_ (hpts ▸ hnd) hfit
    rintro rfl
    exact hne (List.map_eq_nil_iff.mp hpts.symm)

/-! ## Requests to the part -/

theorem commitRequest_moves : Moves s (commitRequest rq s) :=
  segmentRequest_moves fun _ => by
    split
    · next hm =>
      split
      · next hg => exact finish_moves _ ((Relation.ReflTransGen.single (.stageQueued _ _ hm hg)).tail .commitTaken)
      all_goals exact answer_moves _ _ .refl
    · exact answer_moves _ _ .refl

theorem discardRequest_moves : Moves s (discardRequest rq s) :=
  segmentRequest_moves fun _ => by
    dsimp only
    split
    · exact answer_moves _ _ .refl
    · next hg => exact answer_moves _ _ (.single (.stageDiscarded _ hg))
    · next hg =>
      obtain ⟨rs, hrs⟩ := answerCommit_responds (t := s) rq.originator .aborted []
      unfold State.unqueueStage
      rw [hrs]
      exact answer_moves _ _ ((responds_moves rs .refl).tail (.stageUnqueued _ (by rw [responds_stage, hg])))
    · exact answer_moves _ _ .refl

theorem configureNodeRequest_moves : Moves s (configureNodeRequest rq s) :=
  managementRequest_moves fun d => by
    split
    · next h => exact answer_moves _ _ (.single (.configured _ _ h))
    · exact answer_moves _ _ .refl

theorem removeNodeRequest_moves : Moves s (removeNodeRequest rq s) :=
  managementRequest_moves fun n => by
    split
    · next hp =>
      split
      · exact answer_moves _ _ .refl
      · next hu => exact answer_moves _ _ (.single (.removed _ hp (by simpa using hu)))
    · exact answer_moves _ _ .refl

theorem parkNodeRequest_moves : Moves s (parkNodeRequest rq s) :=
  managementRequest_moves fun n => by
    have hpark : Moves s (s.setNode n (s.node n).park) :=
      setNode_moves .refl ⟨rfl, fun h => NodeState.noConfusion h, fun _ _ => ⟨Nat.zero_le _, Nat.zero_le _, rfl, rfl⟩⟩
    split
    · exact answer_moves _ _ .refl
    · exact answer_moves _ _ .refl
    all_goals exact finish_moves _ (respond_moves _ hpark)

theorem unparkNodeRequest_moves : Moves s (unparkNodeRequest rq s) :=
  managementRequest_moves fun n => by
    split
    · refine finish_moves _ (respond_moves _ (setNode_moves .refl ⟨rfl, fun h => NodeState.noConfusion h, fun hp _ => ?_⟩))
      have hw : s.params.wakeDebits ≤ 3 := hp.2.2.2.2.1.2
      exact ⟨by simp only [NodeEntry.unpark]; omega, Nat.zero_le _, Nat.zero_lt_succ _⟩
    all_goals exact answer_moves _ _ .refl

theorem nodeStatusRequest_moves : Moves s (nodeStatusRequest rq s) :=
  managementRequest_moves fun _ => answer_moves _ _ .refl

theorem setParametersRequest_moves : Moves s (setParametersRequest rq s) :=
  managementRequest_moves fun items => by
    split
    · exact answer_moves _ _ .refl
    · next h =>
      have hset := answer_moves s (replyTo rq .setParameters .ok) (.single (.paramsSet items h))
      dsimp only
      split
      · exact arbitrate_moves hset
      · exact hset

theorem readParametersRequest_moves : Moves s (readParametersRequest rq s) :=
  managementRequest_moves fun _ => answer_moves _ _ .refl

theorem setModeRequest_moves : Moves s (setModeRequest rq s) :=
  managementRequest_moves fun m => decideMode_moves rq m

theorem flushRequest_moves : Moves s (flushRequest rq s) :=
  managementRequest_moves fun _ => finish_moves _ (respond_moves _ (flushMode_moves (flushWork_moves .refl)))

theorem fullReset_moves (h : Moves s t) : Moves s t.fullReset := h.tail (.resetTaken t.resetLow)

theorem fullResetRequest_moves : Moves s (fullResetRequest rq s) :=
  managementRequest_moves fun _ => by
    split
    · exact (respond_moves _ .refl).tail .portCloses
    · exact fullReset_moves .refl

theorem readStatusRequest_moves : Moves s (readStatusRequest rq s) :=
  managementRequest_moves fun clear => answer_moves _ _ <| by
    split
    · exact .single (.tallied s.counters s.exq.flags s.exq.mask {} s.pou.lastRefusal)
    · exact .refl

theorem readExceptionsRequest_moves : Moves s (readExceptionsRequest rq s) :=
  managementRequest_moves fun k => answer_moves _ _ (.single (.recordsRead k))

theorem readNoticesRequest_moves : Moves s (readNoticesRequest rq s) :=
  managementRequest_moves fun _ =>
    answer_moves _ _ (.single (.tallied s.counters 0 s.exq.mask s.pou.summary s.pou.lastRefusal))

theorem setNoticeMaskRequest_moves : Moves s (setNoticeMaskRequest rq s) :=
  managementRequest_moves fun m =>
    answer_moves _ _ (.single (.tallied s.counters s.exq.flags m s.pou.summary s.pou.lastRefusal))

theorem readCountersRequest_moves : Moves s (readCountersRequest rq s) :=
  managementRequest_moves fun clear => answer_moves _ _ <| by
    split
    · exact .single (.tallied {} s.exq.flags s.exq.mask s.pou.summary s.pou.lastRefusal)
    · exact .refl

theorem takeRequest_moves (k : ReqKind) : Moves s (takeRequest k rq s) := by
  cases k with
  | write => exact writeRequest_moves rq
  | modify => exact modifyRequest_moves rq
  | read => exact readRequest_moves rq
  | release => exact releaseRequest_moves rq
  | test => exact testRequest_moves rq
  | claim => exact claimRequest_moves rq
  | unclaim => exact unclaimRequest_moves rq
  | stage => exact stageRequest_moves rq
  | commit => exact commitRequest_moves rq
  | discard => exact discardRequest_moves rq
  | configureNode => exact configureNodeRequest_moves rq
  | removeNode => exact removeNodeRequest_moves rq
  | parkNode => exact parkNodeRequest_moves rq
  | unparkNode => exact unparkNodeRequest_moves rq
  | nodeStatus => exact nodeStatusRequest_moves rq
  | setParameters => exact setParametersRequest_moves rq
  | readParameters => exact readParametersRequest_moves rq
  | setMode => exact setModeRequest_moves rq
  | flush => exact flushRequest_moves rq
  | fullReset => exact fullResetRequest_moves rq
  | readStatus => exact readStatusRequest_moves rq
  | readExceptions => exact readExceptionsRequest_moves rq
  | readNotices => exact readNoticesRequest_moves rq
  | setNoticeMask => exact setNoticeMaskRequest_moves rq
  | readCounters => exact readCountersRequest_moves rq

/-! ## Commands by what they are

The row of a request kind is its request; the three rows of raw frames and the rows without a frame stand by
themselves. -/

/-- The effect of the row of a request kind. -/
theorem effect_command (k : ReqKind) (rq : Request) (s : State) :
    effect (k.command rq) s = takeRequest k rq s := by
  cases k <;> rfl

theorem takeFrame_moves (kind : Byte) : Moves s (takeFrame kind rq s) := by
  unfold takeFrame
  split
  · exact takeRequest_moves rq _
  · split
    · exact malformed_moves _ _ .refl
    · exact .refl

theorem receiveFrame_moves (f : List Byte) (cutShort : Bool) : Moves s (receiveFrame f cutShort s) := by
  have hcrc : Moves s (crcFailure s) := closeEvent_moves _ (count_moves _ .refl)
  unfold receiveFrame
  split
  · split
    · exact hcrc
    · split
      · exact takeFrame_moves _ _
      · exact hcrc
  · exact .refl

theorem frameTransmitted_moves : Moves s s.frameTransmitted := by
  unfold State.frameTransmitted
  split
  · exact .refl
  · next h =>
    split
    · exact fullReset_moves .refl
    · exact .single (.frameLeaves h)

/-- An event that is taken unless RESET is low. -/
theorem unlessReset_moves {f : State → State} (h : Moves s (f s)) : Moves s (unlessReset f s) := by
  unfold unlessReset
  split
  · exact .refl
  · exact h

/-- Every command is made of changes. -/
theorem effect_moves (c : Instr) (s : State) : Moves s (effect c s) := by
  cases c with
  | powerOn => exact fullReset_moves .refl
  | resetAsserted => exact .single (.resetTaken true)
  | resetReleased =>
    simp only [effect, State.releaseReset]
    split
    · exact .single (.resetTaken false)
    · exact .refl
  | fullResetTaken =>
    simp only [effect, State.takeFullReset]
    split_ifs
    · exact .refl
    · exact fullReset_moves .refl
    · exact .refl
  | trunkCrcFailure f c => exact receiveFrame_moves f c
  | unknownKindFrame k rq => exact takeFrame_moves rq k
  | closingFrameDiscarded f => exact receiveFrame_moves f false
  | write rq => exact takeRequest_moves rq .write
  | modify rq => exact takeRequest_moves rq .modify
  | read rq => exact takeRequest_moves rq .read
  | release rq => exact takeRequest_moves rq .release
  | test rq => exact takeRequest_moves rq .test
  | claim rq => exact takeRequest_moves rq .claim
  | unclaim rq => exact takeRequest_moves rq .unclaim
  | stage rq => exact takeRequest_moves rq .stage
  | commit rq => exact takeRequest_moves rq .commit
  | discard rq => exact takeRequest_moves rq .discard
  | configureNode rq => exact takeRequest_moves rq .configureNode
  | removeNode rq => exact takeRequest_moves rq .removeNode
  | parkNode rq => exact takeRequest_moves rq .parkNode
  | unparkNode rq => exact takeRequest_moves rq .unparkNode
  | nodeStatus rq => exact takeRequest_moves rq .nodeStatus
  | setParameters rq => exact takeRequest_moves rq .setParameters
  | readParameters rq => exact takeRequest_moves rq .readParameters
  | setMode rq => exact takeRequest_moves rq .setMode
  | flush rq => exact takeRequest_moves rq .flush
  | fullReset rq => exact takeRequest_moves rq .fullReset
  | readStatus rq => exact takeRequest_moves rq .readStatus
  | readExceptions rq => exact takeRequest_moves rq .readExceptions
  | readNotices rq => exact takeRequest_moves rq .readNotices
  | setNoticeMask rq => exact takeRequest_moves rq .setNoticeMask
  | readCounters rq => exact takeRequest_moves rq .readCounters
  | trunkFrameTransmitted =>
    simp only [effect]
    split
    · exact .refl
    · exact frameTransmitted_moves
  | arbiterDecision => exact unlessReset_moves (arbitrate_moves .refl)
  | idleWindowElapsed => exact unlessReset_moves (idleWindowReached_moves .refl)
  | unicastTransmissionEnd => exact unlessReset_moves (unicastEnd_moves .refl)
  | takeTransmissionEnd => exact unlessReset_moves (takeTransmitted_moves .refl)
  | abandonTransmissionEnd => exact unlessReset_moves (abandonTransmitted_moves .refl)
  | clearTransmissionEnd => exact unlessReset_moves (clearTransmitted_moves .refl)
  | dropReplyTaken f => exact unlessReset_moves (dropReceive_moves f .refl)
  | freeFrameReceived f => exact unlessReset_moves (dropReceive_moves f .refl)
  | replyWindowExpiry => exact unlessReset_moves (windowExpire_moves .refl)
  | phaseEvent => exact unlessReset_moves (phaseEvent_moves .refl)
  | intervalExpiry =>
    refine unlessReset_moves ?_
    unfold State.intervalExpiryEvent
    split
    · exact phaseEvent_moves .refl
    · exact .refl
  | commitTaken => exact unlessReset_moves (finish_moves _ (.single .commitTaken))
  | drainEnd => exact unlessReset_moves (closeEvent_moves _ (endDrain_moves .refl))

/-! ## What every step keeps -/

/-- What every change keeps, any number of changes keeps. -/
theorem keeps_of_moves {P : State → Prop} (hm : ∀ s t, Move s t → P s → P t) (h : Moves s t) (hs : P s) :
    P t := by
  induction h with
  | refl => exact hs
  | tail _ hst ih => exact hm _ _ hst ih

/-- What every change keeps, every step keeps. -/
theorem kept_of_move {P : State → Prop} (hp : ∀ (s : State) (l : List Instr), P s → P { s with pending := l })
    (hm : ∀ s t, Move s t → P s → P t) : Kept P :=
  kept_of_effect hp (fun c s hs => keeps_of_moves hm (effect_moves c s) hs)
    fun s hs => keeps_of_moves hm (tick_moves s) hs

end Sys2Proof.Machine
end

section
/-! SUPPORT. What every step keeps: the transmit queue, the capacities, the lists of the arbiter and the request in
hand. In each proof the last case is every change that leaves alone what the property is about. -/

namespace Sys2Proof.Machine

variable {s t : State}

/-- R82, R83. -/
theorem move_transmitQueueLegal (s t : State) (h : Move s t) (hs : TransmitQueueLegal s) :
    TransmitQueueLegal t := by
  obtain ⟨hl, ha, hp⟩ := hs
  cases h with
  | resetTaken => simp [TransmitQueueLegal]
  | frameJoins f hroom =>
    refine ⟨by simpa [State.enqueue] using hroom, ?_, ?_⟩ <;>
      simp only [State.enqueue, List.length_append, List.length_singleton, Bool.or_eq_true, beq_iff_eq] <;>
      intro h24
    · by_cases h : s.tp.queue.length + 1 = 24
      · exact .inr h
      · exact .inl (ha (by omega))
    · have := h24.imp_left hp
      omega
  | @frameLeaves f rest hq =>
    rw [hq, List.length_cons] at hl ha hp
    refine ⟨by simp only [State.frameLeft]; omega, ?_, ?_⟩ <;>
      simp only [State.frameLeft, Bool.and_eq_true, bne_iff_ne] <;> intro h
    · exact ⟨ha (by omega), by omega⟩
    · have := hp h.1
      have := h.2
      omega
  | _ => exact ⟨by simpa using hl, by simpa using ha, by simpa using hp⟩

/-- R75, R76. -/
theorem move_forwardQueueLegal (s t : State) (h : Move s t) (hs : ForwardQueueLegal s) :
    ForwardQueueLegal t := by
  have htail {e : FwdEntry} {rest : List FwdEntry} (hq : s.pou.forward = e :: rest) :
      rest.length ≤ 16 ∧ ∀ o : Originator, (rest.filter fun e => e.originator == o).length ≤ 8 := by
    have hsub : rest.Sublist s.pou.forward := hq ▸ List.sublist_cons_self e rest
    exact ⟨hsub.length_le.trans hs.1, fun o => (hsub.filter _).length_le.trans (hs.2 o)⟩
  cases h with
  | resetTaken => simp [ForwardQueueLegal]
  | entryJoins e hm hr hf =>
    simp only [State.forwardFull, Bool.or_eq_false_iff, decide_eq_false_iff_not, Nat.not_le] at hr
    refine ⟨by simp only [queued, List.length_append, List.length_singleton]; omega, fun o => ?_⟩
    have ho := hs.2 o
    simp only [queued, List.filter_append, List.length_append, List.filter_singleton]
    by_cases he : e.originator = o
    · subst he
      simp only [BEq.rfl, cond_true, List.length_singleton]
      omega
    · simp [beq_false_of_ne he, ho]
  | entryRefused hq => exact htail hq
  | entryGranted i f ht hm hq hf => exact htail hq
  | forwardCleared => simp [ForwardQueueLegal]
  | _ => simpa [ForwardQueueLegal] using hs

/-- R103. -/
theorem move_claimTableLegal (s t : State) (h : Move s t) (hs : ClaimTableLegal s) : ClaimTableLegal t := by
  cases h with
  | resetTaken => simp [ClaimTableLegal]
  | claimsShrink cs hk =>
    exact ⟨by simpa using hk.length_le.trans (by simpa using hs.1), hk.nodup hs.2⟩
  | claimAdded c hl hn =>
    refine ⟨by simpa using hl, ?_⟩
    rw [List.map_append, List.map_singleton, List.nodup_append]
    refine ⟨hs.2, List.nodup_singleton _, fun k hk k' hk' => ?_⟩
    obtain ⟨d, hd, rfl⟩ := List.mem_map.mp hk
    rw [List.mem_singleton.mp hk']
    intro heq
    have hon : d.on c.node c.point = false := by simpa using List.find?_eq_none.mp hn d hd
    have hdon : d.on c.node c.point = true := (claim_on_iff d _ _).mpr (by simpa using heq)
    simp [hon] at hdon
  | _ => simpa [ClaimTableLegal] using hs

/-- R143. -/
theorem move_exceptionQueueLegal (s t : State) (h : Move s t) (hs : ExceptionQueueLegal s) :
    ExceptionQueueLegal t := by
  cases h with
  | resetTaken => simp [ExceptionQueueLegal]
  | recordJoins r hl => simpa [ExceptionQueueLegal] using hl
  | recordsRead k =>
    simp only [ExceptionQueueLegal, List.length_drop] at hs ⊢
    omega
  | _ => simpa [ExceptionQueueLegal] using hs

/-- A requester moved to the end of a list leaves the same requesters. -/
theorem moveToEnd_perm (r : Requester) (l : List Requester) : (moveToEnd r l).Perm l := by
  have h := List.filter_append_perm (fun x => x != r) l
  simpa [moveToEnd, bne] using h

/-- R38. -/
theorem move_listsLegal (s t : State) (h : Move s t) (hs : ListsLegal s) : ListsLegal t := by
  cases h with
  | resetTaken => exact ⟨.refl _, .refl _⟩
  | paramsSet items h =>
    unfold ListsLegal State.setParams
    dsimp only
    split
    · exact hs
    · exact ⟨.refl _, .refl _⟩
  | grantBooked r st =>
    obtain ⟨hr, hl⟩ := hs
    refine ⟨?_, ?_⟩ <;> simp only [State.bookGrant] <;> split
    · exact (moveToEnd_perm _ _).trans hr
    · exact hr
    · exact (moveToEnd_perm _ _).trans hl
    · exact hl
  | _ => simpa [ListsLegal, State.startUni, State.startBroad, State.freeBus, queued] using hs

/-- R79, R80, by what is in flight. -/
theorem inHandLegal_iff (s : State) :
    InHandLegal s ↔
      (s.pou.inHand.isSome = true ↔ ∃ t : UniTxn, s.dbc.txn = some (.uni t) ∧ t.frame.ofPou = true) := by
  unfold InHandLegal
  cases ht : s.dbc.txn with
  | none => simp
  | some x =>
    cases x with
    | broad f => simp
    | uni u => cases hf : u.frame <;> simp [hf, UniFrame.ofPou]

theorem BuiltFor.ofPou {e : FwdEntry} {f : UniFrame} (h : BuiltFor s e f) : f.ofPou = true := by
  unfold BuiltFor at h
  split at h
  · rw [h]; rfl
  · rw [h]; rfl
  · obtain ⟨v, -, rfl⟩ := h; rfl
  · rw [h]; rfl

/-- R79, R80. -/
theorem move_inHandLegal (s t : State) (h : Move s t) (hs : InHandLegal s) : InHandLegal t := by
  rw [inHandLegal_iff] at hs ⊢
  cases h with
  | resetTaken => simp
  | entryGranted i f ht hm hq hf => simp [State.startUni, hf.ofPou]
  | loadGranted o n tag ht hm => simpa [State.startUni, UniFrame.ofPou, ht] using hs
  | renewGranted n items ht hm => simpa [State.startUni, UniFrame.ofPou, ht] using hs
  | broadGranted f ht hm => simpa [State.startBroad, ht] using hs
  | uniRuns u u' hu hn hf => simpa [hu, hf] using hs
  | busFreed hfree =>
    have hno : ¬∃ t : UniTxn, s.dbc.txn = some (.uni t) ∧ t.frame.ofPou = true := by
      rintro ⟨u, hu, hp⟩
      simp [hfree u hu] at hp
    simpa [State.freeBus] using hs.not.mpr hno
  | handFreed u hu hf => simp [State.freeBus]
  | paramsSet items h =>
    have hdbc : (s.setParams items).dbc.txn = s.dbc.txn := by
      simp only [State.setParams]
      split <;> rfl
    simpa [hdbc] using hs
  | grantBooked r st => exact hs
  | _ => simpa [queued] using hs

end Sys2Proof.Machine

open Sys2Proof Sys2Proof.Machine

/-- Settles O54: every change keeps the transmit queue legal; frames join and leave one at a time. -/
theorem transmitQueueStaysLegal : Obligations.TransmitQueueStaysLegal :=
  kept_of_move (fun _ _ h => h) move_transmitQueueLegal

/-- Settles O55: every change keeps each of the five. -/
theorem capacitiesAndListsStayLegal : Obligations.CapacitiesAndListsStayLegal :=
  ⟨kept_of_move (fun _ _ h => h) move_forwardQueueLegal, kept_of_move (fun _ _ h => h) move_claimTableLegal,
    kept_of_move (fun _ _ h => h) move_exceptionQueueLegal, kept_of_move (fun _ _ h => h) move_listsLegal,
    kept_of_move (fun _ _ h => h) move_inHandLegal⟩

end

section
/-! SUPPORT. What every step keeps: the ranges of the parameters and of every node's health (R168, R46, R58). -/

namespace Sys2Proof.Machine

/-- R168 without the order of the two watermarks, which a SET PARAMETERS checks once for all its items. -/
def Params.InRange (p : Params) : Prop :=
  (1 ≤ p.renewalInterval ∧ p.renewalInterval ≤ 255) ∧ (1 ≤ p.highWatermark ∧ p.highWatermark ≤ 7) ∧
    (2 ≤ p.panicWatermark ∧ p.panicWatermark ≤ 8) ∧ (1 ≤ p.wakeDebits ∧ p.wakeDebits ≤ 3) ∧
    p.replyWindowCode ≤ 7 ∧ p.idleWindow ≤ 255 ∧ (1 ≤ p.claimTimeout ∧ p.claimTimeout ≤ 255) ∧
    (1 ≤ p.stageTimeout ∧ p.stageTimeout ≤ 255)

theorem legal_iff_inRange (p : Params) : p.Legal ↔ p.InRange ∧ p.highWatermark < p.panicWatermark := by
  unfold Params.Legal Params.InRange
  tauto

/-- R169 step 1, R170: a value code in its range written. -/
theorem set_inRange {p : Params} {i : ParamId} {v : Byte} (hp : p.InRange) (hv : i.inRange v = true) :
    (p.set i v).InRange := by
  have hbyte : v.toNat ≤ 255 := Nat.le_of_lt_succ v.isLt
  unfold Params.InRange at hp ⊢
  cases i <;> simp only [ParamId.inRange, decide_eq_true_eq, Params.set] at hv ⊢ <;> omega

theorem setAll_inRange (items : List (ParamId × Byte)) : ∀ {p : Params}, p.InRange →
    (∀ i ∈ items, i.1.inRange i.2 = true) → (p.setAll items).InRange := by
  induction items with
  | nil => exact fun hp _ => hp
  | cons i items ih =>
    intro p hp hv
    exact ih (set_inRange hp (hv i List.mem_cons_self)) fun j hj => hv j (List.mem_cons_of_mem _ hj)

/-- R169: what SET PARAMETERS does not refuse leaves the parameters legal. -/
theorem setAll_legal {s : State} {items : List (ParamId × Byte)} (hp : s.params.Legal)
    (h : paramRefusal s items = none) : (s.params.setAll items).Legal := by
  unfold paramRefusal at h
  split at h
  · exact absurd h (by simp)
  · next hf =>
    dsimp only at h
    split at h
    · exact absurd h (by simp)
    · next hw =>
      have hv : ∀ i ∈ items, i.1.inRange i.2 = true := fun i hi => by
        simpa using List.find?_eq_none.mp hf i hi
      exact (legal_iff_inRange _).mpr
        ⟨setAll_inRange items ((legal_iff_inRange _).mp hp).1 hv, Nat.not_le.mp hw⟩

/-- An entry at its reset value, and one just configured, have no debt and no silence. -/
theorem configuredEntry_healthLegal (ds : List Decl) : (configuredEntry ds).HealthLegal := by
  have hfields : ∀ (l : List Decl) (e : NodeEntry),
      (l.foldl (fun e d => e.setPoint d.point { width := some d.width, held := d.held }) e).HealthLegal ↔
        e.HealthLegal := by
    intro l
    induction l with
    | nil => exact fun _ => Iff.rfl
    | cons d l ih => exact fun e => ih _
  exact (hfields ds _).mpr ⟨Nat.zero_le _, Nat.zero_le _, rfl, rfl⟩

/-- R168, R46, R58. -/
theorem move_healthLegal (s t : State) (h : Move s t) (hs : HealthLegal s) : HealthLegal t := by
  obtain ⟨hp, hn⟩ := hs
  have hset {n : NodeIdx} {e : NodeEntry} (he : e.HealthLegal) : HealthLegal (s.setNode n e) := by
    refine ⟨hp, fun m => ?_⟩
    rw [node_setNode]
    split
    · exact he
    · exact hn m
  have hzero : ({} : NodeEntry).HealthLegal := ⟨Nat.zero_le _, Nat.zero_le _, rfl, rfl⟩
  cases h with
  | resetTaken low =>
    refine ⟨by simp [Params.Legal], fun n => ?_⟩
    rw [show ({ s.fullReset with resetLow := low } : State).node n = s.fullReset.node n from rfl,
      node_fullReset]
    exact hzero
  | paramsSet items h => exact ⟨setAll_legal hp h, hn⟩
  | configured n ds h => exact hset (configuredEntry_healthLegal ds)
  | removed n hst hu => exact hset hzero
  | healthChanges nodes h => exact ⟨hp, fun n => (h n).2.2 hp (hn n)⟩
  | valueSet n p v h => exact hset (hn n)
  | valueLoaded n p v h => exact hset (hn n)
  | pendingGone n p => exact hset (hn n)
  | _ => exact ⟨by simpa using hp, by simpa [State.node] using hn⟩

end Sys2Proof.Machine

open Sys2Proof Sys2Proof.Machine

/-- Settles O56: every change keeps the parameters and every entry in range. -/
theorem parametersAndHealthStayLegal : Obligations.ParametersAndHealthStayLegal :=
  kept_of_move (fun _ _ h => h) move_healthLegal

end

section
/-! SUPPORT. What every step keeps: what the mode says of the queues, the commit and the bus (R77, R126, R127, R158,
R160). The changes keep all of it but the last part, that a drain that can end has ended; this is what the end of
every event sees to. -/

namespace Sys2Proof.Machine

variable {s t : State}

/-- What the mode says, but for the drain's end. -/
def ModeAgrees (s : State) : Prop :=
  (s.mode ≠ .run → s.pou.forward = [] ∧ s.ce.queue = []) ∧
    (s.mode = .halted → s.ce.commit = none ∧ s.ce.clearOwed = false ∧ s.dbc.txn = none) ∧
    (s.ce.clearOwed = true → s.ce.commit = none)

theorem modeLegal_iff (s : State) : ModeLegal s ↔ ModeAgrees s ∧ s.drained = false := by
  unfold ModeLegal ModeAgrees
  tauto

/-- R129: the CE takes a commit, or nothing changes. -/
theorem takeCommit_cases (s : State) :
    s.takeCommit = s ∨ ∃ (o : Originator) (rest : List Originator) (c : Commit),
      s.ce.commit = none ∧ s.ce.clearOwed = false ∧ s.ce.queue = o :: rest ∧ c.originator = o ∧
      s.takeCommit = { s.setStage o { s.stage o with state := .committing, tag := some s.ce.nextTag } with
        ce := { s.ce with queue := rest, commit := some c, nextTag := tagAfter s.ce.nextTag } } := by
  unfold State.takeCommit
  split
  · next hidle =>
    simp only [Bool.and_eq_true, Option.isNone_iff_eq_none, Bool.not_eq_true'] at hidle
    split
    · next o rest hq => exact .inr ⟨o, rest, _, hidle.1, hidle.2, hq, rfl, rfl⟩
    · exact .inl rfl
  · exact .inl rfl

/-- R77, R126, R127, R160. -/
theorem move_modeAgrees (s t : State) (h : Move s t) (hs : ModeAgrees s) : ModeAgrees t := by
  obtain ⟨hq, hh, hc⟩ := hs
  cases h with
  | resetTaken => simp [ModeAgrees]
  | paramsSet items h =>
    have hdbc : (s.setParams items).dbc.txn = s.dbc.txn := by
      simp only [State.setParams]
      split <;> rfl
    exact ⟨hq, fun hm => by simpa [hdbc] using hh hm, hc⟩
  | stageQueued o tag hm hg => exact ⟨fun h => absurd hm h, fun h => by simp [hm] at h, hc⟩
  | stageUnqueued o hg => exact ⟨fun hm => ⟨(hq hm).1, by simp [(hq hm).2]⟩, hh, hc⟩
  | queueAborted stages h => exact ⟨fun hm => ⟨(hq hm).1, rfl⟩, hh, hc⟩
  | queueReopened stages h h' => exact ⟨fun hm => ⟨(hq hm).1, rfl⟩, hh, hc⟩
  | commitTaken =>
    obtain he | ⟨o, rest, c, hn, ho, hqu, -, he⟩ := takeCommit_cases s <;> rw [he]
    · exact ⟨hq, hh, hc⟩
    · have hrun : s.mode = .run := by
        by_contra hm
        simp [(hq hm).2] at hqu
      exact ⟨fun hm => absurd hrun hm, fun hm => by simp [hrun] at hm, fun h => by simp [ho] at h⟩
  | commitMoves c c' hcom ho =>
    exact ⟨hq, fun hm => by simp [(hh hm).1] at hcom, fun h => by simp [hc h] at hcom⟩
  | commitClosed c hcom => exact ⟨hq, fun hm => ⟨rfl, (hh hm).2⟩, fun _ => rfl⟩
  | clearSent => exact ⟨hq, fun hm => ⟨(hh hm).1, rfl, (hh hm).2.2⟩, fun h => by simp at h⟩
  | runEntered hm => exact ⟨fun h => absurd rfl h, fun h => by simp at h, fun _ => (hh hm).1⟩
  | drainEntered hm hf hqu => exact ⟨fun _ => ⟨hf, hqu⟩, fun h => by simp at h, hc⟩
  | drainEnds hd =>
    simp only [State.drained, State.busFree, Bool.and_eq_true, beq_iff_eq, Option.isNone_iff_eq_none,
      Bool.not_eq_true'] at hd
    obtain ⟨⟨⟨hm, hcom⟩, ho⟩, ht⟩ := hd
    exact ⟨fun _ => hq (by simp [hm]), fun _ => ⟨hcom, ho, ht⟩, hc⟩
  | entryJoins e hm hr hf => exact ⟨fun h => absurd hm h, hh, hc⟩
  | @entryRefused e rest hf => exact ⟨fun hm => by simp [(hq hm).1] at hf, hh, hc⟩
  | forwardCleared => exact ⟨fun hm => ⟨rfl, (hq hm).2⟩, hh, hc⟩
  | @entryGranted e rest i f ht hm hf hb =>
    exact ⟨fun hr => by simp [(hq hr).1] at hf, fun h => absurd h hm, hc⟩
  | loadGranted o n tag ht hm => exact ⟨hq, fun h => absurd h hm, hc⟩
  | renewGranted n items ht hm => exact ⟨hq, fun h => absurd h hm, hc⟩
  | broadGranted f ht hm => exact ⟨hq, fun h => absurd h hm, hc⟩
  | uniRuns u u' hu hn hf => exact ⟨hq, fun hm => by simp [(hh hm).2.2] at hu, hc⟩
  | busFreed h => exact ⟨hq, fun hm => ⟨(hh hm).1, (hh hm).2.1, rfl⟩, hc⟩
  | handFreed u h hf => exact ⟨hq, fun hm => ⟨(hh hm).1, (hh hm).2.1, rfl⟩, hc⟩
  | _ => exact ⟨by simpa using hq, by simpa [State.bookGrant] using hh, by simpa using hc⟩

/-! ## No drain that can end is left (R158) -/

theorem endDrain_drained (s : State) : s.endDrain.drained = false := by
  obtain ⟨hd, he⟩ | ⟨_, he⟩ := endDrain_cases s <;> rw [he]
  · exact hd
  · simp [State.drained]

@[simp] theorem closeEvent_drained (b a : State) : (closeEvent b a).drained = a.drained := by
  simp [State.drained, State.busFree]

@[simp] theorem respond_drained (r : Response) (s : State) : (s.respond r).drained = s.drained := by
  simp [State.drained, State.busFree]

@[simp] theorem answer_drained (b : State) (r : Response) (s : State) : (answer b r s).drained = s.drained := by
  simp [answer]

theorem decideGrant_drained (r : Requester) (st : GrantStep) (s : State) :
    (s.decideGrant r st).1.drained = false := by
  simp [State.decideGrant, endDrain_drained]

theorem arbitrate_drained (h : s.drained = false) : s.arbitrate.drained = false :=
  arbitrate_keeps (P := fun s => s.drained = false) (fun _ _ _ _ _ => decideGrant_drained _ _ _) h

theorem finish_drained (b a : State) : (finish b a).drained = false := by
  refine finish_keeps (P := fun s => s.drained = false) (fun f s h _ _ => ?_)
    (fun _ _ _ _ _ => decideGrant_drained _ _ _) b (endDrain_drained a)
  simpa [State.drained, State.busFree] using h

/-- No drain stands open in another mode. -/
theorem drained_of_mode (h : s.mode ≠ .draining) : s.drained = false := by
  simp [State.drained, h]

/-- A drain stands open by the mode, the Commit Engine and the bus alone. -/
theorem drained_of_same (h : s.drained = false) (hm : t.mode = s.mode) (hc : t.ce.commit = s.ce.commit)
    (ho : t.ce.clearOwed = s.ce.clearOwed) (hd : t.dbc.txn = s.dbc.txn) : t.drained = false := by
  rw [← h]
  simp [State.drained, State.busFree, hm, hc, ho, hd]

/-- The same, of a state that is answered. -/
theorem answer_drained_of_same (b : State) (r : Response) (h : s.drained = false) (hm : t.mode = s.mode)
    (hc : t.ce.commit = s.ce.commit) (ho : t.ce.clearOwed = s.ce.clearOwed) (hd : t.dbc.txn = s.dbc.txn) :
    (answer b r t).drained = false :=
  (answer_drained b r t).trans (drained_of_same h hm hc ho hd)

variable (rq : Request)

theorem malformed_drained (kind : Byte) (h : s.drained = false) : (malformed kind rq s).drained = false := by
  simpa [malformed] using h

section Frames

variable {α : Type} {k : ReqKind} {rd : List Byte → Option α}

theorem nodeRequest_drained {act : NodeIdx → α → State → State} (h : s.drained = false)
    (ha : ∀ n a, (act n a s).drained = false) : (nodeRequest k rd rq act s).drained = false :=
  nodeRequest_keeps (P := fun s => s.drained = false) h (malformed_drained rq _ h) ha

theorem segmentRequest_drained {act : α → State → State} (h : s.drained = false)
    (ha : ∀ a, (act a s).drained = false) : (segmentRequest k rd rq act s).drained = false :=
  segmentRequest_keeps (P := fun s => s.drained = false) h (malformed_drained rq _ h) ha

theorem managementRequest_drained {act : α → State → State} (h : s.drained = false)
    (ha : ∀ a, (act a s).drained = false) : (managementRequest k rd rq act s).drained = false :=
  segmentRequest_drained rq h fun a => by
    split
    · exact ha a
    · simpa using h

theorem afterArrivalCheck_drained {n : NodeIdx} {pts : List PointIdx} {bit : Option (PointIdx × Fin 16)}
    {go : State → State} (h : s.drained = false) (hgo : (go s).drained = false) :
    (afterArrivalCheck k rq n pts bit go s).drained = false := by
  unfold afterArrivalCheck
  split
  · simpa using h
  · exact hgo

end Frames

/-- A STAGE leaves the mode, the Commit Engine and the bus alone. -/
theorem stage_drained (n : NodeIdx) (items : List Item) (h : s.drained = false) :
    (overrangeCheck .stage rq n items (fun its passed s => decideStage rq n its passed s) s).drained = false := by
  have hd : ∀ its passed, (decideStage rq n its passed s).drained = false := by
    intro its passed
    unfold decideStage
    dsimp only
    split
    · simpa using h
    · simpa using h
    all_goals
      split_ifs
      · simpa using h
      · exact drained_of_same h (by simp) (by simp) (by simp) (by simp)
      · exact drained_of_same h (by simp) (by simp) (by simp) (by simp)
  unfold overrangeCheck
  split
  · exact hd _ _
  · split
    · exact drained_of_same h (by simp) (by simp) (by simp) (by simp)
    · exact hd _ _

theorem takeRequest_drained (k : ReqKind) (h : s.drained = false) : (takeRequest k rq s).drained = false := by
  cases k with
  | write | modify | read | release =>
    exact nodeRequest_drained rq h fun _ _ => afterArrivalCheck_drained rq h (finish_drained _ _)
  | test =>
    exact nodeRequest_drained rq h fun _ _ => afterArrivalCheck_drained rq h (by simpa using h)
  | claim =>
    refine nodeRequest_drained rq h fun n p => afterArrivalCheck_drained rq h ?_
    unfold decideClaim
    dsimp only
    split
    · split
      · exact answer_drained_of_same _ _ h rfl rfl rfl rfl
      · simpa using h
    · split
      · simpa using h
      · exact answer_drained_of_same _ _ h rfl rfl rfl rfl
  | unclaim =>
    refine nodeRequest_drained rq h fun n p => afterArrivalCheck_drained rq h ?_
    unfold decideUnclaim
    split
    · simpa using h
    · split
      · simpa using h
      · exact answer_drained_of_same _ _ h rfl rfl rfl rfl
  | stage =>
    exact nodeRequest_drained rq h fun n items => afterArrivalCheck_drained rq h
      ((closeEvent_drained _ _).trans (stage_drained rq n items h))
  | commit =>
    refine segmentRequest_drained rq h fun _ => ?_
    split
    · split
      · exact finish_drained _ _
      all_goals simpa using h
    · simpa using h
  | discard =>
    refine segmentRequest_drained rq h fun _ => ?_
    dsimp only
    split
    · simpa using h
    · exact answer_drained_of_same _ _ h rfl rfl rfl rfl
    · exact answer_drained_of_same _ _ h (by simp) (by simp [State.unqueueStage])
        (by simp [State.unqueueStage]) (by simp)
    · simpa using h
  | configureNode =>
    refine managementRequest_drained rq h fun d => ?_
    split
    · exact answer_drained_of_same _ _ h rfl rfl rfl rfl
    · simpa [answerNode] using h
  | removeNode =>
    refine managementRequest_drained rq h fun n => ?_
    split
    · split
      · simpa [answerNode] using h
      · exact answer_drained_of_same _ _ h rfl rfl rfl rfl
    · simpa [answerNode] using h
  | parkNode =>
    refine managementRequest_drained rq h fun n => ?_
    split
    · simpa [answerNode] using h
    · simpa [answerNode] using h
    all_goals exact finish_drained _ _
  | unparkNode =>
    refine managementRequest_drained rq h fun n => ?_
    split
    · exact finish_drained _ _
    all_goals simpa [answerNode] using h
  | nodeStatus | readParameters =>
    exact managementRequest_drained rq h fun _ => by simpa using h
  | setParameters =>
    refine managementRequest_drained rq h fun items => ?_
    split
    · simpa using h
    · have hset : (answer s (replyTo rq .setParameters .ok) (s.setParams items)).drained = false := by
        refine answer_drained_of_same _ _ h rfl rfl rfl ?_
        simp only [State.setParams]
        split <;> rfl
      dsimp only
      split
      · exact arbitrate_drained hset
      · exact hset
  | setMode =>
    refine managementRequest_drained rq h fun m => ?_
    unfold decideMode
    split
    · exact arbitrate_drained (by simpa using drained_of_mode (s := s.runEntry) (by simp))
    · exact finish_drained _ _
    all_goals simpa using h
  | flush => exact managementRequest_drained rq h fun _ => finish_drained _ _
  | fullReset =>
    refine managementRequest_drained rq h fun _ => ?_
    split
    · exact drained_of_same h (by simp) (by simp) (by simp) (by simp)
    · exact drained_of_mode (by simp)
  | readStatus | readCounters =>
    refine managementRequest_drained rq h fun clear => ?_
    rw [answer_drained]
    split
    · exact drained_of_same h rfl rfl rfl rfl
    · exact h
  | readExceptions | readNotices | setNoticeMask =>
    refine managementRequest_drained rq h fun _ => ?_
    exact answer_drained_of_same _ _ h rfl rfl rfl rfl

theorem takeFrame_drained (kind : Byte) (h : s.drained = false) : (takeFrame kind rq s).drained = false := by
  unfold takeFrame
  split
  · exact takeRequest_drained rq _ h
  · split
    · exact malformed_drained rq _ h
    · exact h

theorem receiveFrame_drained (f : List Byte) (cutShort : Bool) (h : s.drained = false) :
    (receiveFrame f cutShort s).drained = false := by
  have hcrc : (crcFailure s).drained = false := by simpa [crcFailure] using h
  unfold receiveFrame
  split
  · split
    · exact hcrc
    · split
      · exact takeFrame_drained _ _ h
      · exact hcrc
  · exact h

theorem frameTransmitted_drained (h : s.drained = false) : s.frameTransmitted.drained = false := by
  unfold State.frameTransmitted
  split
  · exact h
  · split
    · exact drained_of_mode (by simp)
    · exact drained_of_same h rfl rfl rfl rfl

/-! ## The drop bus and time -/

theorem dropReceive_drained (f : List Byte) (h : s.drained = false) : (s.dropReceive f).drained = false := by
  unfold State.dropReceive
  split
  · exact finish_drained _ _
  · exact h
  · split
    · exact h
    · split <;> exact finish_drained _ _

theorem windowExpire_drained (h : s.drained = false) : s.windowExpire.drained = false := by
  unfold State.windowExpire
  split
  · split
    · exact finish_drained _ _
    · exact h
  all_goals exact h

theorem busTimer_drained (idleNow : Bool) (h : s.drained = false) : (s.busTimer idleNow).drained = false := by
  unfold State.busTimer
  split
  · exact windowExpire_drained h
  · split
    · exact arbitrate_drained h
    · exact h

theorem unicastEnd_drained (h : s.drained = false) : s.unicastEnd.drained = false := by
  unfold State.unicastEnd
  split
  · next u hu =>
    split
    · rw [← h]
      simp [State.drained, State.busFree, hu]
    · exact h
  all_goals exact h

theorem advanceTimers_drained (h : s.drained = false) : s.advanceTimers.drained = false := by
  have hfree : s.advanceTimers.busFree = s.busFree := by
    unfold State.busFree State.advanceTimers
    dsimp only
    split
    · next u hu => split <;> simp [hu]
    · next f hf => simp [hf]
    · next hf => simp [hf]
  rw [← h]
  simp [State.drained, hfree]

theorem tick_drained (h : s.drained = false) : s.tick.drained = false := by
  have ha := advanceTimers_drained h
  have hf (k : Nat) : ({ s.advanceTimers with freeIndex := k } : State).drained = false := ha
  unfold State.tick
  split
  · exact h
  · dsimp only
    split
    · split
      · exact busTimer_drained _ (finish_drained _ _)
      · exact finish_drained _ _
    · split
      · exact finish_drained _ _
      · split
        · exact busTimer_drained _ ha
        · exact ha

theorem unlessReset_drained {f : State → State} (h : s.drained = false) (hf : (f s).drained = false) :
    (unlessReset f s).drained = false := by
  unfold unlessReset
  split
  · exact h
  · exact hf

/-- The end of every command sees to a drain that can end. -/
theorem effect_drained (c : Instr) (h : s.drained = false) : (effect c s).drained = false := by
  have hreset : s.fullReset.drained = false := drained_of_mode (by simp)
  cases c with
  | powerOn => exact hreset
  | resetAsserted => exact drained_of_mode (by simp [effect, State.assertReset])
  | resetReleased =>
    simp only [effect, State.releaseReset]
    split
    · exact drained_of_mode (by simp)
    · exact h
  | fullResetTaken =>
    simp only [effect, State.takeFullReset]
    split_ifs
    · exact h
    · exact hreset
    · exact h
  | trunkCrcFailure f c => exact receiveFrame_drained f c h
  | unknownKindFrame k rq => exact takeFrame_drained rq k h
  | closingFrameDiscarded f => exact receiveFrame_drained f false h
  | write rq => exact takeRequest_drained rq .write h
  | modify rq => exact takeRequest_drained rq .modify h
  | read rq => exact takeRequest_drained rq .read h
  | release rq => exact takeRequest_drained rq .release h
  | test rq => exact takeRequest_drained rq .test h
  | claim rq => exact takeRequest_drained rq .claim h
  | unclaim rq => exact takeRequest_drained rq .unclaim h
  | stage rq => exact takeRequest_drained rq .stage h
  | commit rq => exact takeRequest_drained rq .commit h
  | discard rq => exact takeRequest_drained rq .discard h
  | configureNode rq => exact takeRequest_drained rq .configureNode h
  | removeNode rq => exact takeRequest_drained rq .removeNode h
  | parkNode rq => exact takeRequest_drained rq .parkNode h
  | unparkNode rq => exact takeRequest_drained rq .unparkNode h
  | nodeStatus rq => exact takeRequest_drained rq .nodeStatus h
  | setParameters rq => exact takeRequest_drained rq .setParameters h
  | readParameters rq => exact takeRequest_drained rq .readParameters h
  | setMode rq => exact takeRequest_drained rq .setMode h
  | flush rq => exact takeRequest_drained rq .flush h
  | fullReset rq => exact takeRequest_drained rq .fullReset h
  | readStatus rq => exact takeRequest_drained rq .readStatus h
  | readExceptions rq => exact takeRequest_drained rq .readExceptions h
  | readNotices rq => exact takeRequest_drained rq .readNotices h
  | setNoticeMask rq => exact takeRequest_drained rq .setNoticeMask h
  | readCounters rq => exact takeRequest_drained rq .readCounters h
  | trunkFrameTransmitted =>
    simp only [effect]
    split
    · exact h
    · exact frameTransmitted_drained h
  | arbiterDecision => exact unlessReset_drained h (arbitrate_drained h)
  | idleWindowElapsed =>
    refine unlessReset_drained h ?_
    unfold State.idleWindowReached
    split
    · exact arbitrate_drained h
    · exact h
  | unicastTransmissionEnd => exact unlessReset_drained h (unicastEnd_drained h)
  | takeTransmissionEnd =>
    refine unlessReset_drained h ?_
    unfold State.takeTransmitted
    split
    · exact finish_drained _ _
    all_goals exact h
  | abandonTransmissionEnd =>
    refine unlessReset_drained h ?_
    unfold State.abandonTransmitted
    split
    · split
      · exact h
      · exact finish_drained _ _
    all_goals exact h
  | clearTransmissionEnd =>
    refine unlessReset_drained h ?_
    unfold State.clearTransmitted
    split
    · split
      · exact finish_drained _ _
      · exact h
    all_goals exact h
  | dropReplyTaken f => exact unlessReset_drained h (dropReceive_drained f h)
  | freeFrameReceived f => exact unlessReset_drained h (dropReceive_drained f h)
  | replyWindowExpiry => exact unlessReset_drained h (windowExpire_drained h)
  | phaseEvent => exact unlessReset_drained h (finish_drained _ _)
  | intervalExpiry =>
    refine unlessReset_drained h ?_
    unfold State.intervalExpiryEvent
    split
    · exact finish_drained _ _
    · exact h
  | commitTaken => exact unlessReset_drained h (finish_drained _ _)
  | drainEnd => exact unlessReset_drained h ((closeEvent_drained _ _).trans (endDrain_drained s))

end Sys2Proof.Machine

open Sys2Proof Sys2Proof.Machine

/-- Settles O57: every change keeps what the mode says, and every event ends the drain that can end. -/
theorem modeStaysLegal : Obligations.ModeStaysLegal := by
  unfold Obligations.ModeStaysLegal
  refine kept_of_effect (fun _ _ h => h) (fun c s hs => ?_) fun s hs => ?_ <;>
    obtain ⟨ha, hd⟩ := (modeLegal_iff s).mp hs <;> refine (modeLegal_iff _).mpr ⟨?_, ?_⟩
  · exact keeps_of_moves move_modeAgrees (effect_moves c s) ha
  · exact effect_drained c hd
  · exact keeps_of_moves move_modeAgrees (tick_moves s) ha
  · exact tick_drained hd

end

section
/-! SUPPORT. What every step keeps: the Stage Store and the Commit Engine (R119, R126, R127). -/

namespace Sys2Proof.Machine

variable {s t : State}

/-! ## One stage -/

/-- R119: the reset value of a stage. -/
theorem legal_closed : ({} : Stage).Legal := by
  simp [Stage.Legal]

/-- What a legal stage that is CLOSED or OPEN does not hold. -/
theorem Stage.Legal.idle {g : Stage} (h : g.Legal) (hg : g.state = .closed ∨ g.state = .opened) :
    g.request = none ∧ g.tag = none := by
  obtain ⟨-, -, -, -, hreq, htag⟩ := h
  have hr : ¬(g.state = .queued ∨ g.state = .committing) := by obtain hg | hg := hg <;> simp [hg]
  have ht : g.state ≠ .committing := fun h => hr (.inr h)
  exact ⟨by simpa using mt hreq.mp hr, by simpa using mt htag.mp ht⟩

section Merge

variable (g : Stage) (n : NodeIdx) (items : List Item)

theorem length_merge : (g.merge n items).length = g.entries.length + (g.newItems n items).length := by
  simp [Stage.merge]

/-- R121: a replaced entry is for the same point. -/
theorem replaceEntry_on (e : StageEntry) :
    (replaceEntry n items e).node = e.node ∧ (replaceEntry n items e).point = e.point := by
  unfold replaceEntry
  split <;> exact ⟨rfl, rfl⟩

/-- R121: the points that the entries name after the request. -/
theorem merge_points : (g.merge n items).map (fun e => (e.node, e.point)) =
    g.entries.map (fun e => (e.node, e.point)) ++ (g.newItems n items).map fun it => (n, it.point) := by
  simp [Stage.merge, Function.comp_def, replaceEntry_on]

/-- An item names an entry's point. -/
theorem names_iff (it : Item) : g.names n it = true ↔ (n, it.point) ∈ g.entries.map fun e => (e.node, e.point) := by
  simp only [Stage.names, StageEntry.on, List.any_eq_true, Bool.and_eq_true, beq_iff_eq, List.mem_map,
    Prod.mk.injEq]

theorem merge_nodup (hg : (g.entries.map fun e => (e.node, e.point)).Nodup)
    (hi : (items.map Item.point).Nodup) : ((g.merge n items).map fun e => (e.node, e.point)).Nodup := by
  rw [merge_points, List.nodup_append]
  refine ⟨hg, ?_, fun k hk k' hk' heq => ?_⟩
  · have hnew : ((g.newItems n items).map Item.point).Nodup := (List.filter_sublist.map _).nodup hi
    have hpair : (g.newItems n items).map (fun it => (n, it.point)) =
        ((g.newItems n items).map Item.point).map (n, ·) := by simp
    rw [hpair]
    exact hnew.map fun _ _ h => (Prod.mk.inj h).2
  · obtain ⟨it, hit, rfl⟩ := List.mem_map.mp hk'
    have hnot : g.names n it = false := by simpa using (List.mem_filter.mp hit).2
    rw [heq, ← names_iff, hnot] at hk
    exact Bool.noConfusion hk

theorem merge_ne_nil (hi : items ≠ []) : g.merge n items ≠ [] := by
  intro h
  obtain ⟨he, hnew⟩ := List.append_eq_nil_iff.mp h
  have hno : g.entries = [] := List.map_eq_nil_iff.mp he
  obtain ⟨it, l, rfl⟩ := List.exists_cons_of_ne_nil hi
  simp [Stage.newItems, Stage.names, hno] at hnew

end Merge

/-- R121: the stage after a STAGE. -/
theorem legal_staged {g : Stage} {n : NodeIdx} {items : List Item} (life : Nat) (h : g.Legal)
    (hg : g.state = .closed ∨ g.state = .opened) (hne : items ≠ []) (hnd : (items.map Item.point).Nodup)
    (h64 : g.entries.length + (g.newItems n items).length ≤ 64) :
    ({ g with state := .opened, entries := g.merge n items, life := some life } : Stage).Legal := by
  obtain ⟨hreq, htag⟩ := h.idle hg
  exact ⟨(length_merge g n items).trans_le h64, merge_nodup g n items h.2.1 hnd,
    by simp [merge_ne_nil g n items hne], by simp, by simp [hreq], by simp [htag]⟩

/-- R123: a stage after an interval expiry. -/
theorem legal_aged {g : Stage} (h : g.Legal) : g.aged.Legal := by
  unfold Stage.aged
  split
  · next hg =>
    split
    · exact legal_closed
    · obtain ⟨h64, hnd, hcl, hlife, hreq, htag⟩ := h
      refine ⟨h64, hnd, hcl, ?_, hreq, htag⟩
      simp only [hg, Option.map_eq_none_iff, reduceCtorEq, false_iff] at hlife ⊢
      exact hlife
  all_goals exact h

theorem aged_state (g : Stage) : g.aged.state = .queued ↔ g.state = .queued := by
  unfold Stage.aged
  split
  · next hg => split <;> simp [hg]
  all_goals exact Iff.rfl

theorem aged_committing (g : Stage) : g.aged.state = .committing ↔ g.state = .committing := by
  unfold Stage.aged
  split
  · next hg => split <;> simp [hg]
  all_goals exact Iff.rfl

theorem aged_entries (g : Stage) : g.aged.entries ⊆ g.entries ∧ g.aged.entries.length ≤ g.entries.length := by
  unfold Stage.aged
  split
  · split
    · simp
    · simp
  all_goals simp

/-! ## The store -/

/-- No stage holds more: the store does not. -/
theorem staged_le (h : ∀ o : Originator, (t.stage o).entries.length ≤ (s.stage o).entries.length) :
    t.staged ≤ s.staged := by
  have h0 := h 0
  have h1 := h 1
  have h2 := h 2
  have h3 := h 3
  unfold State.staged
  omega

/-- What the store holds after a stage is replaced. -/
theorem staged_setStage (o : Originator) (g : Stage) :
    (s.setStage o g).staged + (s.stage o).entries.length = s.staged + g.entries.length := by
  unfold State.staged
  simp only [stage_setStage]
  fin_cases o <;> simp <;> omega

/-- R129: the next tag is never 0. -/
theorem tagAfter_ne_zero (b : Byte) : tagAfter b ≠ 0 := by
  unfold tagAfter
  split
  · decide
  · next hb => bv_omega

/-- A state whose stages and Commit Engine are those of a legal one, but for a stage replaced by one that holds no
more and is neither QUEUED nor COMMITTING, any more than it was. -/
theorem stageStoreLegal_setStage (hs : StageStoreLegal s) {o : Originator} {g : Stage} (hg : g.Legal)
    (hlen : (s.setStage o g).staged ≤ 192) (hq : g.state ≠ .queued) (hc : g.state ≠ .committing)
    (hq' : (s.stage o).state ≠ .queued) (hc' : (s.stage o).state ≠ .committing) :
    StageStoreLegal (s.setStage o g) := by
  obtain ⟨hl, -, hnd, hque, hcom, htag⟩ := hs
  refine ⟨fun p => ?_, hlen, hnd, fun p => ?_, fun p => ?_, htag⟩ <;> rw [stage_setStage] <;> split
  · exact hg
  · exact hl p
  · next he =>
    subst he
    exact ((hque o).trans (iff_of_false hq' hq))
  · exact hque p
  · next he =>
    subst he
    exact ((hcom o).trans (iff_of_false hc' hc))
  · exact hcom p

/-- R119, R126, R127. -/
theorem move_stageStoreLegal (s t : State) (h : Move s t) (hs : StageStoreLegal s) : StageStoreLegal t := by
  have ⟨hl, h192, hnd, hque, hcom, htag⟩ := hs
  cases h with
  | resetTaken low =>
    have hst : ∀ o : Originator, ({ s.fullReset with resetLow := low } : State).stage o = {} :=
      stage_fullReset s
    exact ⟨fun o => by rw [hst]; exact legal_closed,
      (staged_le fun o => by rw [hst]; exact Nat.zero_le _).trans h192, by simp,
      fun o => by rw [hst]; simp, fun o => by rw [hst]; simp, by simp⟩
  | staged o n items hg hne hnd hfit h64 hpool =>
    refine stageStoreLegal_setStage hs (legal_staged _ (hl o) hg hne hnd h64) ?_ (by simp) (by simp) ?_ ?_
    · have hsum := staged_setStage (s := s) o { s.stage o with
        state := .opened, entries := (s.stage o).merge n items, life := some s.params.stageTimeout }
      simp only [length_merge] at hsum
      unfold State.poolFree at hpool
      dsimp only
      omega
    · obtain hg | hg := hg <;> simp [hg]
    · obtain hg | hg := hg <;> simp [hg]
  | stagesAge =>
    refine ⟨fun o => ?_, ?_, hnd, fun o => ?_, fun o => ?_, htag⟩
    · rw [stage_ageStages]; exact legal_aged (hl o)
    · exact (staged_le fun o => by rw [stage_ageStages]; exact (aged_entries _).2).trans h192
    · rw [stage_ageStages, aged_state]; exact hque o
    · rw [stage_ageStages, aged_committing]; exact hcom o
  | stageDiscarded o hg =>
    refine stageStoreLegal_setStage hs legal_closed ?_ (by simp) (by simp) (by simp [hg]) (by simp [hg])
    have hsum := staged_setStage (s := s) o {}
    simp only [List.length_nil] at hsum
    omega
  | openStagesClosed =>
    refine ⟨fun o => ?_, (staged_le fun o => ?_).trans h192, hnd, fun o => ?_, fun o => ?_, htag⟩ <;>
      rw [stage_closeOpen] <;> split
    · exact legal_closed
    · exact hl o
    · exact Nat.zero_le _
    · exact Nat.le_refl _
    · next hg => exact (hque o).trans (by simp [hg])
    · exact hque o
    · next hg => exact (hcom o).trans (by simp [hg])
    · exact hcom o
  | stageQueued o tag hm hg =>
    have hst : ∀ p : Originator, (s.queueStage o tag).stage p =
        if o = p then { s.stage o with state := .queued, request := some tag } else s.stage p :=
      fun p => stage_setStage s o p _
    have hnq : o ∉ s.ce.queue := fun h => by simp [(hque o).mp h] at hg
    refine ⟨fun p => ?_, (staged_le fun p => ?_).trans h192, ?_, fun p => ?_, fun p => ?_, htag⟩
    · rw [hst]
      split
      · obtain ⟨h64, hne, hcl, hlife, -, htag⟩ := hl o
        exact ⟨h64, hne, by simpa [hg] using hcl, by simpa [hg] using hlife, by simp, by simpa [hg] using htag⟩
      · exact hl p
    · rw [hst]
      split
      · next he => exact he ▸ Nat.le_refl _
      · exact Nat.le_refl _
    · show (s.ce.queue ++ [o]).Nodup
      exact List.nodup_append.mpr ⟨hnd, List.nodup_singleton _, fun a ha b hb heq =>
        hnq (List.mem_singleton.mp hb ▸ heq ▸ ha)⟩
    · show p ∈ s.ce.queue ++ [o] ↔ _
      rw [hst, List.mem_append, List.mem_singleton, hque]
      split
      · next he => simp [he]
      · next he => simp [Ne.symm he]
    · show s.ce.commit.map Commit.originator = some p ↔ _
      rw [hst, hcom]
      split
      · next he => simp [← he, hg]
      · rfl
  | stageUnqueued o hg =>
    have hst : ∀ p : Originator, (State.closeStage o
        { s with ce := { s.ce with queue := s.ce.queue.filter fun x => x != o } }).stage p =
        if o = p then {} else s.stage p :=
      fun p => stage_setStage _ o p _
    refine ⟨fun p => ?_, (staged_le fun p => ?_).trans h192, hnd.filter _, fun p => ?_, fun p => ?_, htag⟩
    · rw [hst]
      split
      · exact legal_closed
      · exact hl p
    · rw [hst]
      split
      · exact Nat.zero_le _
      · exact Nat.le_refl _
    · show p ∈ s.ce.queue.filter (fun x => x != o) ↔ _
      rw [hst, List.mem_filter, hque]
      split
      · next he => simp [he]
      · next he => simp [Ne.symm he]
    · show s.ce.commit.map Commit.originator = some p ↔ _
      rw [hst, hcom]
      split
      · next he => simp [← he, hg]
      · rfl
  | queueAborted stages h =>
    have hst : ∀ o : Originator, ({ s with stages := stages, ce := { s.ce with queue := [] } } : State).stage o =
        if o ∈ s.ce.queue then {} else s.stage o := h
    refine ⟨fun o => ?_, (staged_le fun o => ?_).trans h192, List.nodup_nil, fun o => ?_, fun o => ?_, htag⟩ <;>
      rw [hst] <;> split
    · exact legal_closed
    · exact hl o
    · exact Nat.zero_le _
    · exact Nat.le_refl _
    · simp
    · next hq => simpa using fun h => hq ((hque o).mpr h)
    · next hq => exact (hcom o).trans (by simp [(hque o).mp hq])
    · exact hcom o
  | queueReopened stages h h' =>
    have hst : ∀ o : Originator, ({ s with stages := stages, ce := { s.ce with queue := [] } } : State).stage o =
        stages[o] := fun _ => rfl
    refine ⟨fun o => ?_, (staged_le fun o => ?_).trans h192, List.nodup_nil, fun o => ?_, fun o => ?_, htag⟩ <;>
      rw [hst] <;> by_cases hq : o ∈ s.ce.queue
    · obtain ⟨life, he⟩ := h o hq
      have hqd := (hque o).mp hq
      obtain ⟨h64, hne, hcl, hlife, hreq, htag⟩ := hl o
      rw [he]
      exact ⟨h64, hne, by simpa [hqd] using hcl, by simp, by simp, by simpa [hqd] using htag⟩
    · rw [h' o hq]; exact hl o
    · obtain ⟨life, he⟩ := h o hq
      rw [he]
    · rw [h' o hq]
    · obtain ⟨life, he⟩ := h o hq
      simp [he]
    · rw [h' o hq]
      simpa using fun h => hq ((hque o).mpr h)
    · obtain ⟨life, he⟩ := h o hq
      exact (hcom o).trans (by simp [he, (hque o).mp hq])
    · rw [h' o hq]; exact hcom o
  | commitTaken =>
    obtain he | ⟨o, rest, c, hn, ho, hqu, hco, he⟩ := takeCommit_cases s <;> rw [he]
    · exact hs
    · have hst : ∀ p : Originator,
          ({ s.setStage o { s.stage o with state := .committing, tag := some s.ce.nextTag } with
            ce := { s.ce with queue := rest, commit := some c, nextTag := tagAfter s.ce.nextTag } } :
              State).stage p =
          if o = p then { s.stage o with state := .committing, tag := some s.ce.nextTag } else s.stage p :=
        fun p => stage_setStage s o p _
      have hqd : (s.stage o).state = .queued := (hque o).mp (by simp [hqu])
      have hidle : ∀ p : Originator, (s.stage p).state ≠ .committing := fun p hp => by
        simpa [hn] using (hcom p).mpr hp
      rw [hqu, List.nodup_cons] at hnd
      refine ⟨fun p => ?_, (staged_le fun p => ?_).trans h192, hnd.2, fun p => ?_, fun p => ?_,
        tagAfter_ne_zero _⟩
      · rw [hst]
        split
        · obtain ⟨h64, hne, hcl, hlife, hreq, -⟩ := hl o
          exact ⟨h64, hne, by simpa [hqd] using hcl, by simpa [hqd] using hlife, by simpa [hqd] using hreq,
            by simp⟩
        · exact hl p
      · rw [hst]
        split
        · next he => exact he ▸ Nat.le_refl _
        · exact Nat.le_refl _
      · rw [hst]
        split
        · next he => simpa using he ▸ hnd.1
        · next he =>
          rw [← hque, hqu]
          simp [Ne.symm he]
      · rw [hst]
        split
        · next he => simp [hco, he]
        · next he =>
          simpa [hco, he] using hidle p
  | commitMoves c c' hc ho =>
    refine ⟨hl, h192, hnd, hque, fun o => ?_, htag⟩
    simpa [hc, ho, State.stage] using hcom o
  | commitClosed c hc =>
    have hst : ∀ p : Originator, ({ s.closeStage c.originator with ce := { s.ce with commit := none } } :
        State).stage p = if c.originator = p then {} else s.stage p :=
      fun p => stage_setStage s c.originator p _
    have hcm : (s.stage c.originator).state = .committing := (hcom _).mp (by simp [hc])
    refine ⟨fun p => ?_, (staged_le fun p => ?_).trans h192, hnd, fun p => ?_, fun p => ?_, htag⟩ <;>
      rw [hst] <;> split
    · exact legal_closed
    · exact hl p
    · exact Nat.zero_le _
    · exact Nat.le_refl _
    · next he => exact (hque p).trans (by simp [← he, hcm])
    · exact hque p
    · simp
    · next he =>
      rw [← hcom, hc]
      simpa using he
  | _ => simpa [StageStoreLegal, State.stage, State.staged, State.freeBus] using hs

end Sys2Proof.Machine

open Sys2Proof Sys2Proof.Machine

/-- Settles O58: every change keeps the Stage Store and the Commit Engine legal. -/
theorem stageStoreStaysLegal : Obligations.StageStoreStaysLegal :=
  kept_of_move (fun _ _ h => h) move_stageStoreLegal

end

section
/-! SUPPORT. The operations of MODIFY bit by bit (R89), and that they stay within a width. -/

namespace Sys2Proof

theorem getLsbD_one_shiftLeft {i j : Nat} (hj : j < 16) : (1#16 <<< i).getLsbD j = decide (j = i) := by
  rw [Bool.eq_iff_iff]
  simp
  omega

/-- The bits that a list of bit indexes puts into a word. -/
theorem getLsbD_foldl_or (c : Nat → Bool) {j : Nat} (hj : j < 16) (l : List Nat) : ∀ acc : Word,
    (l.foldl (fun acc i => if c i then acc ||| (1#16 <<< i) else acc) acc).getLsbD j =
      (acc.getLsbD j || (decide (j ∈ l) && c j)) := by
  induction l with
  | nil => simp
  | cons i l ih =>
    intro acc
    rw [List.foldl_cons, ih]
    by_cases hc : c i = true
    · rw [if_pos hc, BitVec.getLsbD_or, getLsbD_one_shiftLeft hj]
      by_cases hij : j = i
      · simp [hij, hc]
      · simp [hij]
    · rw [if_neg hc]
      by_cases hij : j = i
      · simp [hij, hc]
      · simp [hij]

/-- R89, REVERSE, bit by bit. -/
theorem getLsbD_reverseLow (b : Fin 16) (v : Word) (i : Nat) :
    (reverseLow b.val v).getLsbD i = if i ≤ b.val then v.getLsbD (b.val - i) else v.getLsbD i := by
  by_cases hi : i < 16
  · rw [reverseLow, getLsbD_foldl_or (fun i => v.getLsbD (if i ≤ b.val then b.val - i else i)) hi]
    simp only [BitVec.getLsbD_zero, List.mem_range, hi, decide_true, Bool.false_or, Bool.true_and]
    split <;> rfl
  · have hb : ¬i ≤ b.val := by omega
    rw [if_neg hb, BitVec.getLsbD_of_ge _ _ (Nat.not_lt.mp hi), BitVec.getLsbD_of_ge _ _ (Nat.not_lt.mp hi)]

/-- R89: SET, CLEAR and TOGGLE, bit by bit. -/
theorem getLsbD_apply_set (b : Fin 16) (v : Word) (i : Nat) :
    (BitOp.set.apply b v).getLsbD i = (decide (i = b.val) || v.getLsbD i) := by
  by_cases hi : i < 16
  · rw [BitOp.apply, BitVec.getLsbD_or, getLsbD_one_shiftLeft hi, Bool.or_comm]
  · have hb : i ≠ b.val := by omega
    simp [BitVec.getLsbD_of_ge _ _ (Nat.not_lt.mp hi), hb]

theorem getLsbD_apply_clear (b : Fin 16) (v : Word) (i : Nat) :
    (BitOp.clear.apply b v).getLsbD i = (decide (i ≠ b.val) && v.getLsbD i) := by
  by_cases hi : i < 16
  · rw [BitOp.apply, BitVec.getLsbD_and, BitVec.getLsbD_not, getLsbD_one_shiftLeft hi, Bool.and_comm]
    simp [hi]
  · simp [BitVec.getLsbD_of_ge _ _ (Nat.not_lt.mp hi)]

theorem getLsbD_apply_toggle (b : Fin 16) (v : Word) (i : Nat) :
    (BitOp.toggle.apply b v).getLsbD i = (decide (i = b.val) ^^ v.getLsbD i) := by
  by_cases hi : i < 16
  · rw [BitOp.apply, BitVec.getLsbD_xor, getLsbD_one_shiftLeft hi, Bool.xor_comm]
  · have hb : i ≠ b.val := by omega
    simp [BitVec.getLsbD_of_ge _ _ (Nat.not_lt.mp hi), hb]

/-- A word lies within a width when it has no bit from there on. -/
theorem toNat_lt_two_pow_iff (w : Nat) (v : Word) : v.toNat < 2 ^ w ↔ ∀ i, w ≤ i → v.getLsbD i = false :=
  ⟨fun h _ hi => Nat.testBit_lt_two_pow (h.trans_le (Nat.pow_le_pow_right Nat.zero_lt_two hi)),
    fun h => Nat.lt_pow_two_of_testBit _ h⟩

/-- R88, R89: a MODIFY of a bit below the width keeps the value within it. -/
theorem apply_lt {w : Nat} {b : Fin 16} {v : Word} (o : BitOp) (hv : v.toNat < 2 ^ w) (hb : b.val < w) :
    (o.apply b v).toNat < 2 ^ w := by
  rw [toNat_lt_two_pow_iff] at hv ⊢
  intro i hi
  have hne : i ≠ b.val := by omega
  cases o with
  | set => simp [getLsbD_apply_set, hne, hv i hi]
  | clear => simp [getLsbD_apply_clear, hv i hi]
  | toggle => simp [getLsbD_apply_toggle, hne, hv i hi]
  | reverse =>
    have hgt : ¬i ≤ b.val := by omega
    rw [BitOp.apply, getLsbD_reverseLow, if_neg hgt, hv i hi]

end Sys2Proof

open Sys2Proof Sys2Proof.Machine

/-- Settles O40: bit by bit, for each of the four operations. -/
theorem modifyOperations : Obligations.ModifyOperations :=
  fun b v i => ⟨getLsbD_apply_set b v i, getLsbD_apply_clear b v i, getLsbD_apply_toggle b v i,
    getLsbD_reverseLow b v i⟩

end

section
/-! SUPPORT. What every step keeps: every value of the shadow, and every value on its way to it, within its point's
declared width (R3, R5). -/

namespace Sys2Proof.Machine

variable {s t : State}

/-! ## Values and widths -/

/-- What fits at a node still fits where its points have the same widths. -/
theorem FitsPoint.mono {n : NodeIdx} {p : PointIdx} {v : Word} (h : FitsPoint s n p v)
    (hw : ∀ w, (s.point n p).width = some w → (t.point n p).width = some w) : FitsPoint t n p v := by
  obtain ⟨w, hs, hv⟩ := h
  exact ⟨w, hw w hs, hv⟩

theorem NodeOp.FitsNode.mono {n : NodeIdx} {op : NodeOp} (h : op.FitsNode s n)
    (hw : ∀ p w, (s.point n p).width = some w → (t.point n p).width = some w) : op.FitsNode t n := by
  cases op with
  | write items => exact fun it hit => (h it hit).mono (hw it.point)
  | modify p o b =>
    obtain ⟨w, hs, hb⟩ := h
    exact ⟨w, hw p w hs, hb⟩
  | read pts =>
    intro p hp
    obtain ⟨w, hs⟩ := Option.isSome_iff_exists.mp (h p hp)
    rw [hw p w hs]
    rfl
  | release it => exact FitsPoint.mono h (hw it.point)

theorem UniFrame.FitsNode.mono {n : NodeIdx} {f : UniFrame} (h : f.FitsNode s n)
    (hw : ∀ p w, (s.point n p).width = some w → (t.point n p).width = some w) : f.FitsNode t n := by
  cases f with
  | write items => exact fun it hit => (h it hit).mono (hw it.point)
  | load tag items => exact fun it hit => (h it hit).mono (hw it.point)
  | read pts => trivial
  | renew items => trivial

/-- A state with the Node Table of a legal one, whose stages, forward queue and transaction fit it. -/
theorem shadowLegal_of_nodes (hs : ShadowLegal s) (hn : t.nodes = s.nodes)
    (hst : ∀ o : Originator, ∀ e ∈ (t.stage o).entries, FitsPoint s e.node e.point e.value)
    (hfwd : ∀ e ∈ t.pou.forward, e.op.FitsNode s e.node)
    (htxn : ∀ u : UniTxn, t.dbc.txn = some (.uni u) → u.frame.FitsNode s u.node) : ShadowLegal t := by
  obtain ⟨ha, hp, hh, habs, -, -, -⟩ := hs
  have hpt : ∀ (n : NodeIdx) (p : PointIdx), t.point n p = s.point n p := point_of_same_nodes hn
  have hnode : ∀ n : NodeIdx, t.node n = s.node n := fun n => by simp [State.node, hn]
  have hw : ∀ (n : NodeIdx) (p : PointIdx) (w : Nat),
      (s.point n p).width = some w → (t.point n p).width = some w := fun n p w h => by rw [hpt, h]
  refine ⟨fun n p v h => ?_, fun n p v h => ?_, fun n p h => ?_, fun n h p => ?_,
    fun o e he => (hst o e he).mono (hw _ _), fun e he => (hfwd e he).mono (hw _),
    fun u hu => (htxn u hu).mono (hw _)⟩
  · exact (ha n p v (hpt n p ▸ h)).mono (hw n p)
  · exact (hp n p v (hpt n p ▸ h)).mono (hw n p)
  · rw [hpt] at h ⊢
    exact hh n p h
  · rw [hpt]
    exact habs n (hnode n ▸ h) p

/-- Nothing but the Node Table has changed, and its points are declared as they were. -/
theorem shadowLegal_of_declared (hs : ShadowLegal s) (hst : t.stages = s.stages) (hf : t.pou.forward = s.pou.forward)
    (hd : t.dbc.txn = s.dbc.txn)
    (hw : ∀ (n : NodeIdx) (p : PointIdx), (t.point n p).width = (s.point n p).width)
    (hh : ∀ (n : NodeIdx) (p : PointIdx), (t.point n p).held = (s.point n p).held)
    (habs : ∀ n : NodeIdx, (t.node n).state = .absent → (s.node n).state = .absent)
    (ha : ∀ (n : NodeIdx) (p : PointIdx) (v : Word), (t.point n p).active = some v → FitsPoint s n p v)
    (hp : ∀ (n : NodeIdx) (p : PointIdx) (v : Word), (t.point n p).pending = some v → FitsPoint s n p v) :
    ShadowLegal t := by
  obtain ⟨-, -, hheld, hab, hsts, hfwd, htxn⟩ := hs
  have hmono : ∀ (n : NodeIdx) (p : PointIdx) (w : Nat),
      (s.point n p).width = some w → (t.point n p).width = some w := fun n p w h => by rw [hw, h]
  refine ⟨fun n p v h => (ha n p v h).mono (hmono n p), fun n p v h => (hp n p v h).mono (hmono n p),
    fun n p h => ?_, fun n h p => ?_, fun o e he => ?_, fun e he => ?_, fun u hu => ?_⟩
  · rw [hw]
    exact hheld n p (hh n p ▸ h)
  · rw [hw]
    exact hab n (habs n h) p
  · exact (hsts o e (by simpa [State.stage, hst] using he)).mono (hmono _ _)
  · exact (hfwd e (hf ▸ he)).mono (hmono _)
  · exact (htxn u (hd ▸ hu)).mono (hmono _)

/-- A point replaced by one declared alike, whose values fit. -/
theorem shadowLegal_setPoint (hs : ShadowLegal s) {n : NodeIdx} {p : PointIdx} {r : PointRec}
    (hw : r.width = (s.point n p).width) (hh : r.held = (s.point n p).held)
    (ha : ∀ v, r.active = some v → FitsPoint s n p v) (hp : ∀ v, r.pending = some v → FitsPoint s n p v) :
    ShadowLegal (s.setPoint n p r) := by
  have hdecl := setPoint_sameDecls hw hh (sameDecls_refl s)
  refine shadowLegal_of_declared hs rfl rfl rfl (fun m q => (hdecl m q).1) (fun m q => (hdecl m q).2)
    (fun m h => ?_) (fun m q v h => ?_) (fun m q v h => ?_)
  · unfold State.setPoint at h
    rw [node_setNode] at h
    split at h
    · next he => exact he ▸ h
    · exact h
  · rw [statePoint_setPoint] at h
    split at h
    · next he =>
      obtain ⟨rfl, rfl⟩ := he
      exact ha v h
    · exact hs.1 m q v h
  · rw [statePoint_setPoint] at h
    split at h
    · next he =>
      obtain ⟨rfl, rfl⟩ := he
      exact hp v h
    · exact hs.2.1 m q v h

/-! ## Nodes declared and removed -/

/-- R11: a point of a node just configured has no value, and is held only when it is declared. -/
theorem configuredEntry_point (ds : List Decl) (p : PointIdx) :
    ((configuredEntry ds).point p).active = none ∧ ((configuredEntry ds).point p).pending = none ∧
      (((configuredEntry ds).point p).held = true → ((configuredEntry ds).point p).width.isSome = true) := by
  have hfold : ∀ (l : List Decl) (e : NodeEntry),
      (∀ p, (e.point p).active = none ∧ (e.point p).pending = none ∧
        ((e.point p).held = true → (e.point p).width.isSome = true)) →
      ∀ p, let e' := l.foldl (fun e d => e.setPoint d.point { width := some d.width, held := d.held }) e
        (e'.point p).active = none ∧ (e'.point p).pending = none ∧
          ((e'.point p).held = true → (e'.point p).width.isSome = true) := by
    intro l
    induction l with
    | nil => exact fun _ he => he
    | cons d l ih =>
      intro e he
      refine ih _ fun q => ?_
      rw [point_setPoint]
      split
      · simp
      · exact he q
  exact hfold ds _ (by simp [NodeEntry.point]) p

/-- An entry replaced by one without values, where nothing else names the node. -/
theorem shadowLegal_setNode (hs : ShadowLegal s) {n : NodeIdx} {e : NodeEntry}
    (hval : ∀ p, (e.point p).active = none ∧ (e.point p).pending = none)
    (hheld : ∀ p, (e.point p).held = true → (e.point p).width.isSome = true)
    (habs : e.state = .absent → ∀ p, (e.point p).width = none)
    (hst : ∀ o : Originator, ∀ g ∈ (s.stage o).entries, g.node ≠ n)
    (hfwd : ∀ d ∈ s.pou.forward, d.node = n → d.op.FitsNode (s.setNode n e) n)
    (htxn : ∀ u : UniTxn, s.dbc.txn = some (.uni u) → u.node = n → u.frame.FitsNode (s.setNode n e) n) :
    ShadowLegal (s.setNode n e) := by
  obtain ⟨ha, hp, hh, hab, hsts, hf, ht⟩ := hs
  have hpt : ∀ (m : NodeIdx) (p : PointIdx), (s.setNode n e).point m p = if n = m then e.point p else s.point m p := by
    intro m p
    simp only [State.point, node_setNode]
    split <;> rfl
  have hother {m : NodeIdx} (hm : m ≠ n) (p : PointIdx) (w : Nat) (h : (s.point m p).width = some w) :
      ((s.setNode n e).point m p).width = some w := by rw [hpt, if_neg (Ne.symm hm), h]
  refine ⟨fun m p v h => ?_, fun m p v h => ?_, fun m p h => ?_, fun m h p => ?_, fun o g hg => ?_,
    fun d hd => ?_, fun u hu => ?_⟩
  · rw [hpt] at h
    split at h
    · simp [(hval p).1] at h
    · next hm => exact (ha m p v h).mono (hother (Ne.symm hm) p)
  · rw [hpt] at h
    split at h
    · simp [(hval p).2] at h
    · next hm => exact (hp m p v h).mono (hother (Ne.symm hm) p)
  · rw [hpt] at h ⊢
    split at h
    · next hm => rw [if_pos hm]; exact hheld p h
    · next hm => rw [if_neg hm]; exact hh m p h
  · rw [hpt]
    rw [node_setNode] at h
    split at h
    · next hm => rw [if_pos hm]; exact habs h p
    · next hm => rw [if_neg hm]; exact hab m h p
  · exact (hsts o g hg).mono (hother (hst o g hg) g.point)
  · by_cases hm : d.node = n
    · exact hm ▸ hfwd d hd hm
    · exact (hf d hd).mono (hother hm)
  · by_cases hm : u.node = n
    · exact hm ▸ htxn u hu hm
    · exact (ht u hu).mono (hother hm)

/-- Where a node declares nothing, no value fits. -/
theorem not_fitsPoint_of_absent (hs : ShadowLegal s) {n : NodeIdx} (h : (s.node n).state = .absent)
    (p : PointIdx) (v : Word) : ¬FitsPoint s n p v := by
  rintro ⟨w, hw, -⟩
  simp [hs.2.2.2.1 n h p] at hw

/-- R10: nothing waits at a node that declares nothing, so a declaration takes nothing out of its width. -/
theorem shadowLegal_configured (hs : ShadowLegal s) {n : NodeIdx} (ds : List Decl)
    (h : (s.node n).state = .absent) : ShadowLegal (s.setNode n (configuredEntry ds)) := by
  have hno := not_fitsPoint_of_absent hs h
  have hnone : ∀ (p : PointIdx) (w : Nat), (s.point n p).width = some w →
      ((s.setNode n (configuredEntry ds)).point n p).width = some w := fun p w hw => by
    simp [hs.2.2.2.1 n h p] at hw
  refine shadowLegal_setNode hs (fun p => ⟨(configuredEntry_point ds p).1, (configuredEntry_point ds p).2.1⟩)
    (fun p => (configuredEntry_point ds p).2.2) ?_ (fun o g hg hgn => ?_) (fun d hd hdn => ?_) fun u hu hun => ?_
  · intro hst
    have hparked : ∀ (l : List Decl) (e : NodeEntry),
        (l.foldl (fun e d => e.setPoint d.point { width := some d.width, held := d.held }) e).state = e.state := by
      intro l
      induction l with
      | nil => exact fun _ => rfl
      | cons d l ih => exact fun e => ih _
    have hp : (configuredEntry ds).state = .parked := hparked ds _
    simp [hp] at hst
  · exact hno g.point g.value (hgn ▸ hs.2.2.2.2.1 o g hg)
  · exact NodeOp.FitsNode.mono (hdn ▸ hs.2.2.2.2.2.1 d hd) hnone
  · exact UniFrame.FitsNode.mono (hun ▸ hs.2.2.2.2.2.2 u hu) hnone

/-- R12, R14: a node that is not in use is named by nothing. -/
theorem shadowLegal_removed (hs : ShadowLegal s) {n : NodeIdx} (hu : s.inUse n = false) :
    ShadowLegal (s.setNode n {}) := by
  simp only [State.inUse, Bool.or_eq_false_iff, List.any_eq_false, beq_iff_eq] at hu
  obtain ⟨⟨⟨⟨-, hst⟩, hf⟩, hb⟩, -⟩ := hu
  refine shadowLegal_setNode hs (by simp [NodeEntry.point]) (by simp [NodeEntry.point])
    (by simp [NodeEntry.point]) (fun o g hg hgn => hst o (List.mem_finRange o) ?_)
    (fun d hd hdn => absurd hdn (hf d hd)) fun u hu hun => ?_
  · exact List.any_eq_true.mpr ⟨g, hg, by simpa using hgn⟩
  · simp [State.busUses, hu, hun] at hb

/-! ## Values on their way -/

/-- R133, R87: the value of a value-setting event fits. -/
theorem Incoming.fits (hs : ShadowLegal s) {n : NodeIdx} {p : PointIdx} {v : Word} (h : Incoming s n p v) :
    FitsPoint s n p v := by
  obtain h | ⟨u, items, hu, hf, rfl, hit⟩ := h
  · exact hs.2.1 n p v h
  · have hfit := hs.2.2.2.2.2.2 u hu
    rw [hf] at hfit
    exact hfit _ hit

/-- R131: the value that an ACCEPTED LOAD sets fits. -/
theorem Loading.fits (hs : ShadowLegal s) {n : NodeIdx} {p : PointIdx} {v : Word} (h : Loading s n p v) :
    FitsPoint s n p v := by
  obtain ⟨u, tag, items, hu, hf, rfl, hit⟩ := h
  have hfit := hs.2.2.2.2.2.2 u hu
  rw [hf] at hfit
  exact hfit _ hit

/-- R79, R88, R110: the frame of a grant fits when its entry does. -/
theorem BuiltFor.fits (hs : ShadowLegal s) {e : FwdEntry} {f : UniFrame} (he : e.op.FitsNode s e.node)
    (h : BuiltFor s e f) : f.FitsNode s e.node := by
  unfold BuiltFor at h
  cases hop : e.op with
  | read pts =>
    rw [hop] at h
    subst h
    trivial
  | write items =>
    rw [hop] at h he
    subst h
    exact he
  | modify p o b =>
    rw [hop] at h he
    obtain ⟨v, hv, rfl⟩ := h
    obtain ⟨w, hw, hb⟩ := he
    obtain ⟨w', hw', hlt⟩ := hs.1 _ _ _ hv
    obtain rfl : w = w' := Option.some.inj (hw.symm.trans hw')
    intro it hit
    rw [List.mem_singleton.mp hit]
    exact ⟨w, hw, apply_lt o hlt hb⟩
  | release it =>
    rw [hop] at h he
    subst h
    intro i hi
    rw [List.mem_singleton.mp hi]
    exact he

/-- R121: the entries after a STAGE fit. -/
theorem merge_fits (hs : ShadowLegal s) {o : Originator} {n : NodeIdx} {items : List Item}
    (hfit : ∀ it ∈ items, FitsPoint s n it.point it.value) :
    ∀ e ∈ (s.stage o).merge n items, FitsPoint s e.node e.point e.value := by
  intro e he
  unfold Stage.merge at he
  obtain he | he := List.mem_append.mp he
  · obtain ⟨g, hg, rfl⟩ := List.mem_map.mp he
    unfold replaceEntry
    split
    · next it hf =>
      have hon : g.node = n ∧ g.point = it.point := by simpa [StageEntry.on] using List.find?_some hf
      obtain ⟨hgn, hgp⟩ := hon
      show FitsPoint s g.node g.point it.value
      rw [hgn, hgp]
      exact hfit it (List.mem_of_find?_eq_some hf)
    · exact hs.2.2.2.2.1 o g hg
  · obtain ⟨it, hit, rfl⟩ := List.mem_map.mp he
    exact hfit it (List.mem_filter.mp hit).1

/-- R3, R5. -/
theorem move_shadowLegal (s t : State) (h : Move s t) (hs : ShadowLegal s) : ShadowLegal t := by
  have ⟨ha, hp, hh, habs, hst, hfwd, htxn⟩ := hs
  -- the stages of the Stage Store, one of them replaced by one whose entries fit
  have hset {o : Originator} {g : Stage} (hg : ∀ e ∈ g.entries, FitsPoint s e.node e.point e.value)
      (p : Originator) : ∀ e ∈ ((s.setStage o g).stage p).entries, FitsPoint s e.node e.point e.value := by
    rw [stage_setStage]
    split
    · exact hg
    · exact hst p
  have hnone : ∀ e ∈ ({} : Stage).entries, FitsPoint s e.node e.point e.value := by simp
  cases h with
  | resetTaken low =>
    have hpt : ∀ (n : NodeIdx) (p : PointIdx),
        ({ s.fullReset with resetLow := low } : State).point n p = {} := fun n p => by
      show (s.fullReset.node n).point p = {}
      simp [NodeEntry.point]
    have hstage : ∀ o : Originator, ({ s.fullReset with resetLow := low } : State).stage o = {} :=
      stage_fullReset s
    refine ⟨fun n p v h => ?_, fun n p v h => ?_, fun n p h => ?_, fun n _ p => ?_, fun o e he => ?_, by simp,
      by simp⟩
    · rw [hpt] at h
      exact absurd h (by simp)
    · rw [hpt] at h
      exact absurd h (by simp)
    · rw [hpt] at h
      exact absurd h (by simp)
    · rw [hpt]
    · rw [hstage] at he
      exact absurd he (by simp)
  | paramsSet items h =>
    have hdbc : (s.setParams items).dbc.txn = s.dbc.txn := by
      simp only [State.setParams]
      split <;> rfl
    exact shadowLegal_of_nodes hs rfl hst hfwd (hdbc ▸ htxn)
  | configured n ds h => exact shadowLegal_configured hs ds h
  | removed n _ hu => exact shadowLegal_removed hs hu
  | healthChanges nodes h =>
    have hpt : ∀ (n : NodeIdx) (p : PointIdx), ({ s with nodes := nodes } : State).point n p = s.point n p := by
      intro n p
      show nodes[n].points[p] = (s.node n).points[p]
      rw [(h n).1]
    exact shadowLegal_of_declared hs rfl rfl rfl (fun n p => by rw [hpt]) (fun n p => by rw [hpt])
      (fun n => (h n).2.1) (fun n p v h => ha n p v (hpt n p ▸ h)) fun n p v h => hp n p v (hpt n p ▸ h)
  | valueSet n p v h =>
    refine shadowLegal_setPoint hs rfl rfl (fun w hw => ?_) (hp n p)
    obtain rfl : v = w := Option.some.inj hw
    exact h.fits hs
  | valueLoaded n p v h =>
    refine shadowLegal_setPoint hs rfl rfl (ha n p) fun w hw => ?_
    obtain rfl : v = w := Option.some.inj hw
    exact h.fits hs
  | pendingGone n p => exact shadowLegal_setPoint hs rfl rfl (ha n p) (by simp)
  | staged o n items hg hne hnd hfit => exact shadowLegal_of_nodes hs rfl (hset (merge_fits hs hfit)) hfwd htxn
  | stagesAge =>
    refine shadowLegal_of_nodes hs rfl (fun o => ?_) hfwd htxn
    rw [stage_ageStages]
    exact fun e he => hst o e ((aged_entries _).1 he)
  | stageDiscarded o h => exact shadowLegal_of_nodes hs rfl (hset hnone) hfwd htxn
  | openStagesClosed =>
    refine shadowLegal_of_nodes hs rfl (fun o => ?_) hfwd htxn
    rw [stage_closeOpen]
    split
    · exact hnone
    · exact hst o
  | stageQueued o tag hm h => exact shadowLegal_of_nodes hs rfl (hset (hst o)) hfwd htxn
  | stageUnqueued o h => exact shadowLegal_of_nodes hs rfl (hset hnone) hfwd htxn
  | queueAborted stages h =>
    refine shadowLegal_of_nodes hs rfl (fun o => ?_) hfwd htxn
    show ∀ e ∈ stages[o].entries, _
    rw [h]
    split
    · exact hnone
    · exact hst o
  | queueReopened stages h h' =>
    refine shadowLegal_of_nodes hs rfl (fun o => ?_) hfwd htxn
    show ∀ e ∈ stages[o].entries, _
    by_cases hq : o ∈ s.ce.queue
    · obtain ⟨life, he⟩ := h o hq
      rw [he]
      exact hst o
    · rw [h' o hq]
      exact hst o
  | commitTaken =>
    obtain he | ⟨o, rest, c, -, -, -, -, he⟩ := takeCommit_cases s <;> rw [he]
    · exact hs
    · exact shadowLegal_of_nodes hs rfl (hset (hst o)) hfwd htxn
  | commitClosed c hc => exact shadowLegal_of_nodes hs rfl (hset hnone) hfwd htxn
  | entryJoins e hm hr hf =>
    refine shadowLegal_of_nodes hs rfl hst (fun d hd => ?_) htxn
    obtain hd | hd := List.mem_append.mp hd
    · exact hfwd d hd
    · exact List.mem_singleton.mp hd ▸ hf
  | entryRefused hq => exact shadowLegal_of_nodes hs rfl hst (fun d hd => hfwd d (hq ▸ List.mem_cons_of_mem _ hd)) htxn
  | forwardCleared => exact shadowLegal_of_nodes hs rfl hst (by simp) htxn
  | entryGranted i f ht hm hq hf =>
    refine shadowLegal_of_nodes hs rfl hst (fun d hd => hfwd d (hq ▸ List.mem_cons_of_mem _ hd)) fun u hu => ?_
    obtain rfl := Txn.uni.inj (Option.some.inj hu)
    exact hf.fits hs (hfwd _ (hq ▸ List.mem_cons_self))
  | loadGranted o n tag ht hm =>
    refine shadowLegal_of_nodes hs rfl hst hfwd fun u hu => ?_
    obtain rfl := Txn.uni.inj (Option.some.inj hu)
    intro it hit
    obtain ⟨e, he, rfl⟩ := List.mem_map.mp hit
    obtain ⟨hmem, hn⟩ := List.mem_filter.mp he
    obtain rfl : e.node = n := by simpa using hn
    exact hst o e hmem
  | renewGranted n items ht hm =>
    refine shadowLegal_of_nodes hs rfl hst hfwd fun u hu => ?_
    obtain rfl := Txn.uni.inj (Option.some.inj hu)
    trivial
  | broadGranted f ht hm => exact shadowLegal_of_nodes hs rfl hst hfwd fun u hu => by simp [State.startBroad] at hu
  | uniRuns u u' hu hn hf =>
    refine shadowLegal_of_nodes hs rfl hst hfwd fun v hv => ?_
    obtain rfl := Txn.uni.inj (Option.some.inj hv)
    rw [hn, hf]
    exact htxn u hu
  | busFreed h => exact shadowLegal_of_nodes hs rfl hst hfwd fun u hu => by simp [State.freeBus] at hu
  | handFreed u h hf => exact shadowLegal_of_nodes hs rfl hst hfwd fun u hu => by simp [State.freeBus] at hu
  | _ => exact shadowLegal_of_nodes hs rfl hst hfwd htxn

end Sys2Proof.Machine

open Sys2Proof Sys2Proof.Machine

/-- Settles O59: every change keeps every value in its width. -/
theorem shadowStaysInWidth : Obligations.ShadowStaysInWidth :=
  kept_of_move (fun _ _ h => h) move_shadowLegal

/-- Settles O60: the reset state is empty, so that each property holds of it as it does after a full reset. -/
theorem resetIsLegal : Obligations.ResetIsLegal := by
  have hs : ∀ o : Originator, State.reset.stage o = {} := by simp [State.stage, State.reset]
  have hn : ∀ n : NodeIdx, State.reset.node n = {} := by simp [State.node, State.reset]
  have hp : ∀ (n : NodeIdx) (p : PointIdx), State.reset.point n p = {} := by
    simp [State.point, hn, NodeEntry.point]
  refine ⟨?_, ?_, ?_, ?_, ⟨.refl _, .refl _⟩, ?_, ⟨?_, fun n => ?_⟩, ?_, ?_, ?_⟩
  · simp [TransmitQueueLegal, State.reset]
  · simp [ForwardQueueLegal, State.reset]
  · simp [ClaimTableLegal, State.reset]
  · simp [ExceptionQueueLegal, State.reset]
  · simp [InHandLegal, State.reset]
  · simp [Params.Legal, State.reset]
  · rw [hn]
    exact ⟨Nat.zero_le _, Nat.zero_le _, rfl, rfl⟩
  · simp [ModeLegal, State.drained, State.reset]
  · exact ⟨fun o => by rw [hs]; exact legal_closed, by simp [State.staged, hs], by simp [State.reset],
      fun o => by rw [hs]; simp [State.reset], fun o => by rw [hs]; simp [State.reset], by simp [State.reset]⟩
  · exact ⟨by simp [hp], by simp [hp], by simp [hp], by simp [hp], by simp [hs], by simp [State.reset],
      by simp [State.reset]⟩

end

section
/-! SUPPORT. Frames that are not taken, resets, the transmit queue, records and counters, and the end of an event:
what each operation does, case by case. -/

namespace Sys2Proof.Machine

variable {α : Type} {s : State} {rq : Request}

/-- A command answers what its effect is. -/
theorem exec_of_effect {c : Instr} {t : State} (h : effect c s = t) : exec c s = .next t :=
  (exec_eq_effect c s).trans (congrArg _ h)

/-! ## Frames that are not taken (R84, R164) -/

theorem takesFrames_iff (s : State) : s.takesFrames = true ↔ s.resetLow = false ∧ s.tp.closing = false := by
  simp [State.takesFrames]

theorem takesFrames_of_low (h : s.resetLow = true) : s.takesFrames = false := by simp [State.takesFrames, h]

theorem takesFrames_of_closing (h : s.tp.closing = true) : s.takesFrames = false := by simp [State.takesFrames, h]

theorem nodeRequest_of_not_taken {k : ReqKind} {rd : List Byte → Option α} {act : NodeIdx → α → State → State}
    (h : s.takesFrames = false) : nodeRequest k rd rq act s = s := by simp [nodeRequest, h]

theorem segmentRequest_of_not_taken {k : ReqKind} {rd : List Byte → Option α} {act : α → State → State}
    (h : s.takesFrames = false) : segmentRequest k rd rq act s = s := by simp [segmentRequest, h]

theorem managementRequest_of_not_taken {k : ReqKind} {rd : List Byte → Option α} {act : α → State → State}
    (h : s.takesFrames = false) : managementRequest k rd rq act s = s := segmentRequest_of_not_taken h

theorem takeRequest_of_not_taken (k : ReqKind) (h : s.takesFrames = false) : takeRequest k rq s = s := by
  cases k with
  | write | modify | read | release | test | claim | unclaim | stage => exact nodeRequest_of_not_taken h
  | commit | discard =>
    simp only [takeRequest]
    exact segmentRequest_of_not_taken h
  | configureNode | removeNode | parkNode | unparkNode | nodeStatus | setParameters | readParameters | setMode
  | flush | fullReset | readStatus | readExceptions | readNotices | setNoticeMask | readCounters =>
    simp only [takeRequest]
    exact managementRequest_of_not_taken h

theorem takeFrame_of_not_taken (kind : Byte) (h : s.takesFrames = false) : takeFrame kind rq s = s := by
  unfold takeFrame
  split
  · exact takeRequest_of_not_taken _ h
  · rw [h]
    rfl

theorem receiveFrame_of_not_taken (f : List Byte) (cutShort : Bool) (h : s.takesFrames = false) :
    receiveFrame f cutShort s = s := by simp [receiveFrame, h]

/-- R164: what a command does while RESET is held low. -/
theorem effect_of_low (c : Instr) (h : s.resetLow = true) (hp : c ≠ .powerOn) (ha : c ≠ .resetAsserted)
    (hr : c ≠ .resetReleased) : effect c s = s := by
  have ht := takesFrames_of_low h
  have hrq (k : ReqKind) (rq : Request) : effect (k.command rq) s = s :=
    (effect_command k rq s).trans (takeRequest_of_not_taken k ht)
  cases c with
  | powerOn => exact absurd rfl hp
  | resetAsserted => exact absurd rfl ha
  | resetReleased => exact absurd rfl hr
  | fullResetTaken | trunkFrameTransmitted => exact if_pos h
  | trunkCrcFailure f cut => exact receiveFrame_of_not_taken f cut ht
  | closingFrameDiscarded f => exact receiveFrame_of_not_taken f false ht
  | unknownKindFrame k rq => exact takeFrame_of_not_taken k ht
  | write rq => exact hrq .write rq
  | modify rq => exact hrq .modify rq
  | read rq => exact hrq .read rq
  | release rq => exact hrq .release rq
  | test rq => exact hrq .test rq
  | claim rq => exact hrq .claim rq
  | unclaim rq => exact hrq .unclaim rq
  | stage rq => exact hrq .stage rq
  | commit rq => exact hrq .commit rq
  | discard rq => exact hrq .discard rq
  | configureNode rq => exact hrq .configureNode rq
  | removeNode rq => exact hrq .removeNode rq
  | parkNode rq => exact hrq .parkNode rq
  | unparkNode rq => exact hrq .unparkNode rq
  | nodeStatus rq => exact hrq .nodeStatus rq
  | setParameters rq => exact hrq .setParameters rq
  | readParameters rq => exact hrq .readParameters rq
  | setMode rq => exact hrq .setMode rq
  | flush rq => exact hrq .flush rq
  | fullReset rq => exact hrq .fullReset rq
  | readStatus rq => exact hrq .readStatus rq
  | readExceptions rq => exact hrq .readExceptions rq
  | readNotices rq => exact hrq .readNotices rq
  | setNoticeMask rq => exact hrq .setNoticeMask rq
  | readCounters rq => exact hrq .readCounters rq
  | arbiterDecision | idleWindowElapsed | unicastTransmissionEnd | takeTransmissionEnd | abandonTransmissionEnd
  | clearTransmissionEnd | dropReplyTaken | freeFrameReceived | replyWindowExpiry | phaseEvent | intervalExpiry
  | commitTaken | drainEnd => exact unlessReset_of_low _ h

/-! ## Resets (R84, R164, R165) -/

/-- R84: with the OK of the FULL RESET alone left to send, the reset is taken at the end of its transmission and by
FULL_RESET_TAKEN alike. -/
theorem fullReset_taken (hr : s.resetLow = false) (hc : s.tp.closing = true) (hq : s.tp.queue.length = 1) :
    effect .fullResetTaken s = s.fullReset ∧ effect .trunkFrameTransmitted s = s.fullReset := by
  obtain ⟨f, hf⟩ := List.length_eq_one_iff.mp hq
  constructor
  · show (if s.resetLow then s else s.takeFullReset) = s.fullReset
    simp [hr, State.takeFullReset, hc, hq]
  · show (if s.resetLow then s else s.frameTransmitted) = s.fullReset
    simp [hr, State.frameTransmitted, hc, hf]

/-- With no node offered, no node is the candidate. -/
theorem candidate_none (h : ∀ n : NodeIdx, levelOf s.params (s.node n) = none) : s.candidate = none := by
  have hfold (l : List NodeIdx) : l.foldl (fun best n => preferOffer best (s.offerOf n)) none = none := by
    induction l with
    | nil => rfl
    | cons n l ih => simpa [State.offerOf, h, preferOffer] using ih
  exact hfold _

/-! ## The transmit queue (R82, R83) -/

/-- R83: PAUSE is asserted by the frame that makes the occupancy 24. -/
theorem enqueue_eq (f : TrunkFrame) (s : State) :
    s.enqueue f = { s with tp := { s.tp with
      queue := s.tp.queue ++ [f]
      pause := s.tp.pause || decide (s.tp.queue.length = 23) } } := by
  have h : (s.tp.queue.length + 1 == 24) = decide (s.tp.queue.length = 23) := by
    rw [Bool.eq_iff_iff]
    simp
  rw [State.enqueue, h]

theorem respond_of_closing (r : Response) (h : s.tp.closing = true) : s.respond r = s := by simp [State.respond, h]

theorem respond_of_room (r : Response) (h : s.tp.closing = false) (hq : s.tp.queue.length < 32) :
    s.respond r = s.enqueue (.response r) := by simp [State.respond, h, hq]

theorem respond_of_full (r : Response) (h : s.tp.closing = false) (hq : 32 ≤ s.tp.queue.length) :
    s.respond r = s.count .responsesLost := by simp [State.respond, h, Nat.not_lt.mpr hq]

theorem frameTransmitted_of_left {f : TrunkFrame} {rest : List TrunkFrame} (h : s.tp.queue = f :: rest)
    (hc : s.tp.closing = false ∨ rest ≠ []) : s.frameTransmitted = s.frameLeft rest := by
  have hn : (s.tp.closing && rest.isEmpty) = false := by
    obtain hc | hc := hc
    · rw [hc]
      rfl
    · rw [List.isEmpty_eq_false_iff.mpr hc, Bool.and_false]
  unfold State.frameTransmitted
  simp [h, hn]

theorem frameLeft_eq (rest : List TrunkFrame) (s : State) :
    s.frameLeft rest = { s with tp := { s.tp with
      queue := rest
      pause := s.tp.pause && decide (rest.length ≠ 16) } } := by
  simp [State.frameLeft, bne, beq_eq_decide]

/-! ## Records and counters (R43, R144, R146, R150) -/

theorem offer_of_room (b : ExcBody) (h : s.exq.queue.length < 32) :
    s.offer b = { s with exq := { s.exq with
      queue := s.exq.queue ++ [{ body := b, stamp := s.rs.intervalCount }]
      flags := if s.exq.queue = [] then s.exq.flags ||| 1#5 else s.exq.flags } } := by
  unfold State.offer
  rw [if_pos h]
  by_cases hq : s.exq.queue = []
  · simp [hq, State.raise, NoticeFlag.bit]
  · simp [hq]

theorem offer_of_full (b : ExcBody) (h : 32 ≤ s.exq.queue.length) :
    s.offer b = (s.count .exceptionsLost).raise .excLost := if_neg (Nat.not_lt.mpr h)

theorem count_counters (c : Counter) (s : State) : (s.count c).counters = s.counters.incr c := by
  unfold State.count
  split <;> rfl

theorem count_exq (c : Counter) (s : State) :
    (s.count c).exq =
      if s.counters.get c = 65535#16 then { s.exq with flags := s.exq.flags ||| 4#5 } else s.exq := by
  unfold State.count
  split <;> rfl

/-- R150: an increment changes the counters and the notice flags only. -/
theorem count_eq (c : Counter) (s : State) :
    s.count c = { s with counters := (s.count c).counters, exq := (s.count c).exq } := by
  unfold State.count
  split <;> rfl

theorem get_incr (c d : Counter) (x : Counters) : (x.incr c).get d = if d = c then x.get d + 1 else x.get d := by
  cases c <;> cases d <;> rfl

/-- R43: a list is made of three others, each in its own order. -/
structure Merges (r a b c : List ExcBody) : Prop where
  perm : r.Perm (a ++ b ++ c)
  first : a.Sublist r
  second : b.Sublist r
  third : c.Sublist r

theorem merges_append (a b c : List ExcBody) : Merges (a ++ b ++ c) a b c where
  perm := .refl _
  first := (List.sublist_append_left a b).trans (List.sublist_append_left _ c)
  second := (List.sublist_append_right a b).trans (List.sublist_append_left _ c)
  third := List.sublist_append_right _ c

theorem Merges.cons_first {r a b c : List ExcBody} (h : Merges r a b c) (x : ExcBody) :
    Merges (x :: r) (x :: a) b c where
  perm := h.perm.cons x
  first := h.first.cons_cons x
  second := h.second.cons x
  third := h.third.cons x

theorem Merges.cons_second {r a b c : List ExcBody} (h : Merges r a b c) (x : ExcBody) :
    Merges (x :: r) a (x :: b) c where
  perm := (h.perm.cons x).trans (by simpa using (List.perm_middle (l₁ := a) (l₂ := b ++ c) (a := x)).symm)
  first := h.first.cons x
  second := h.second.cons_cons x
  third := h.third.cons x

theorem Merges.cons_third {r a b c : List ExcBody} (h : Merges r a b c) (x : ExcBody) :
    Merges (x :: r) a b (x :: c) where
  perm := (h.perm.cons x).trans List.perm_middle.symm
  first := h.first.cons x
  second := h.second.cons x
  third := h.third.cons_cons x

/-- R43: whatever the free value answers, the three groups keep their orders. -/
theorem interleave_merges (pick : Nat → Nat) (k : Nat) : ∀ (i : Nat) (a b c : List ExcBody),
    Merges (interleave pick k i a b c).1 a b c := by
  induction k with
  | zero => exact fun i a b c => merges_append a b c
  | succ k ih =>
    intro i a b c
    unfold interleave
    split
    · exact merges_append a b c
    · split
      · exact (ih ..).cons_first _
      · exact (ih ..).cons_second _
      · exact (ih ..).cons_third _
      · exact (ih ..).cons_first _
      · exact (ih ..).cons_second _
      · exact merges_append [] [] _

/-! ## The end of an event (R35, R149, R158) -/

theorem drained_iff (s : State) : s.drained = true ↔
    s.mode = .draining ∧ s.ce.commit = none ∧ s.ce.clearOwed = false ∧ s.dbc.txn = none := by
  simp [State.drained, State.busFree, and_assoc]

theorem decisionDue_iff (b a : State) : decisionDue b a = true ↔
    a.dbc.txn = none ∧ (a.fwdWaits || a.cmtWaits || a.rnwWaits) = true ∧
      (b.dbc.txn.isSome = true ∨ beginsToWait b a = true) := by
  simp [decisionDue, State.busFree, and_assoc]

/-- R35: whether a decision is due is not changed by the drain's end and the NOTICE. -/
theorem decisionDue_closed (b a : State) : decisionDue b (closeEvent b a.endDrain) = decisionDue b a := by
  simp only [decisionDue, State.busFree, closeEvent_waits, endDrain_waits, closeEvent_beginsToWait,
    endDrain_beginsToWait, closeEvent_dbc, endDrain_dbc]

theorem finish_of_not_due {b a : State} (h : decisionDue b a = false) : finish b a = closeEvent b a.endDrain := by
  unfold finish
  simp only [decisionDue_closed, h]
  rfl

theorem finish_of_due {b a : State} (h : decisionDue b a = true) :
    finish b a = (closeEvent b a.endDrain).arbitrate := by
  unfold finish
  simp only [decisionDue_closed, h]
  rfl

theorem finish_of_busy {b a : State} (h : a.dbc.txn.isSome = true) : finish b a = closeEvent b a := by
  have hd : decisionDue b a = false := by
    obtain ⟨t, ht⟩ := Option.isSome_iff_exists.mp h
    simp [decisionDue, State.busFree, ht]
  rw [finish_of_not_due hd, endDrain_of_busy h]

theorem fwdWaits_iff (s : State) : s.fwdWaits = true ↔ s.pou.forward ≠ [] := by simp [State.fwdWaits]

theorem cmtWaits_iff (s : State) : s.cmtWaits = true ↔ s.cmtWork ≠ none := by
  simp [State.cmtWaits, Option.isSome_iff_ne_none]

theorem rnwWaits_iff (s : State) : s.rnwWaits = true ↔ s.candidate ≠ none := by
  simp [State.rnwWaits, Option.isSome_iff_ne_none]

/-- R35: RNW begins to wait when it waits at a level at which it did not wait. -/
theorem rnw_begins_iff (b a : State) :
    (a.rnwWaits && a.candidate.map Offer.level != b.candidate.map Offer.level) = true ↔
      ∃ o : Offer, a.candidate = some o ∧ ∀ o' : Offer, b.candidate = some o' → o'.level ≠ o.level := by
  unfold State.rnwWaits
  cases ha : a.candidate with
  | none => simp
  | some o =>
    cases hb : b.candidate with
    | none => simp
    | some o' => simp [eq_comm (a := o.level)]

theorem beginsToWait_iff (b a : State) : beginsToWait b a = true ↔
    (a.pou.forward ≠ [] ∧ b.pou.forward = []) ∨ (a.cmtWork ≠ none ∧ b.cmtWork = none) ∨
      ∃ o : Offer, a.candidate = some o ∧ ∀ o' : Offer, b.candidate = some o' → o'.level ≠ o.level := by
  have hf : (!b.fwdWaits) = true ↔ b.pou.forward = [] := by simp [State.fwdWaits]
  have hc : (!b.cmtWaits) = true ↔ b.cmtWork = none := by simp [State.cmtWaits]
  simp only [beginsToWait, Bool.or_eq_true]
  rw [rnw_begins_iff, Bool.and_eq_true, Bool.and_eq_true, hf, hc, fwdWaits_iff, cmtWaits_iff, or_assoc]

end Sys2Proof.Machine

open Sys2Proof Sys2Proof.Machine

/-- Settles O1: this is how a step is defined. -/
theorem stepTakesTheFrontCommand : Obligations.StepTakesTheFrontCommand := fun _ _ _ => rfl

/-- Settles O4: each source of a full reset by its own definition; while RESET is low every other command is not
taken. -/
theorem resetsAndTheResetPin : Obligations.ResetsAndTheResetPin := by
  refine ⟨fun s => ⟨rfl, rfl, fun h => exec_of_effect (if_pos h), fun hr hc hq => ?_⟩,
    fun c s h hp ha hr => exec_of_effect (effect_of_low c h hp ha hr)⟩
  obtain ⟨ht, hf⟩ := fullReset_taken hr hc hq
  exact ⟨exec_of_effect ht, exec_of_effect hf⟩

/-- Settles O5: the reset values are the defaults of the model's structures; with every node ABSENT there is no
renewal candidate. -/
theorem fullResetValues : Obligations.FullResetValues := by
  intro s
  have hcand : s.fullReset.candidate = none := candidate_none fun n => by simp [levelOf]
  have hpool : s.fullReset.poolFree = 192 := by simp [State.poolFree, State.staged]
  refine ⟨fun n => ?_, fun n p => ?_, rfl, rfl, rfl, rfl, rfl, rfl, hcand, rfl, rfl, rfl, stage_fullReset s, hpool,
    rfl, rfl, fun c => ?_, rfl, rfl⟩
  · simp
  · simp [State.point, NodeEntry.point]
  · cases c <;> rfl

/-- Settles O6: a response by the room in the queue; the head's departure by what is left. -/
theorem transmitQueueTraffic : Obligations.TransmitQueueTraffic := by
  refine ⟨fun r s => ⟨respond_of_closing r, fun h hq => ?_, fun h hq => respond_of_full r h hq⟩,
    fun f rest s hr hq hc => exec_of_effect ?_⟩
  · rw [respond_of_room r h hq, enqueue_eq]
  · calc effect .trunkFrameTransmitted s
        = s.frameTransmitted := if_neg (by simp [hr])
      _ = s.frameLeft rest := frameTransmitted_of_left hq hc
      _ = _ := frameLeft_eq rest s

/-- Settles O7: R149 flag by flag, and the frame joins as any other does. -/
theorem noticeAtTheEndOfAnEvent : Obligations.NoticeAtTheEndOfAnEvent := by
  refine ⟨fun b a => ?_, fun b a r => rfl⟩
  rw [closeEvent, enqueue_eq]
  refine if_congr ?_ rfl rfl
  rw [← rings_iff]
  simp [and_assoc]

/-- Settles O8: a record offered by the room in the queue; the merge of the groups by induction; an increment by the
counter. -/
theorem recordsAndCounters : Obligations.RecordsAndCounters := by
  refine ⟨fun b s => ⟨offer_of_room b, offer_of_full b⟩, fun pick i a b c => ?_, fun c d s => ⟨count_eq c s, ?_, count_exq c s⟩⟩
  · obtain ⟨hp, ha, hb, hc⟩ := interleave_merges pick (a.length + b.length + c.length) i a b c
    exact ⟨hp, ha, hb, hc⟩
  · rw [count_counters, get_incr]

/-- Settles O9: by whether a decision is due. -/
theorem endOfAnEvent : Obligations.EndOfAnEvent := by
  refine ⟨fun b a => finish_of_busy, fun b a hd hf hw => finish_of_free_quiet hf hd hw,
    ⟨fun b a hf hn => finish_of_not_due ?_, fun a => ?_⟩, fun b a hf hw hb => finish_of_due ?_,
    fun b a => ⟨fwdWaits_iff a, cmtWaits_iff a, rnwWaits_iff a, beginsToWait_iff b a⟩⟩
  · refine Bool.eq_false_iff.mpr fun hd => ?_
    obtain ⟨-, hwait, hnew⟩ := (decisionDue_iff b a).1 hd
    obtain hn | ⟨hb, hn⟩ := hn
    · exact absurd hwait (by simp [hn])
    · simp [hb, hn] at hnew
  · exact if_congr (drained_iff a) rfl rfl
  · exact (decisionDue_iff b a).2 ⟨hf, hw, hb⟩

end

section
/-! SUPPORT. Frames that are refused before their kind's own effect (R67 to R72, R177): the body that each kind reads,
and the checks in their order. -/

namespace Sys2Proof

/-! ## What each kind's body reader takes (Table 11-2) -/

theorem sizedBody_iff (rq : Request) (b : List Byte) :
    rq.sizedBody = some b ↔ b = rq.body ∧ rq.length.toNat = b.length ∧ b.length ≤ 96 := by
  unfold Request.sizedBody
  split
  next h =>
    constructor
    · rintro ⟨⟩
      exact ⟨rfl, h⟩
    · rintro ⟨rfl, -⟩
      rfl
  next h =>
    refine ⟨nofun, ?_⟩
    rintro ⟨rfl, h'⟩
    exact absurd h' h

theorem ofAddr_some_iff (a : Nat) (n : NodeIdx) : NodeIdx.ofAddr? a = some n ↔ a = n.val + 1 := by
  unfold NodeIdx.ofAddr?
  split
  next h =>
    simp only [Option.some.injEq, Fin.ext_iff]
    omega
  next h =>
    simp only [reduceCtorEq, false_iff]
    omega

theorem readItemsBody_iff (its : List Item) (b : List Byte) :
    readItemsBody b = some its ↔
      1 ≤ its.length ∧ its.length ≤ 16 ∧ (its.map Item.point).Nodup ∧ b = itemsBody its := by
  have h := readCounted_iff (key := Item.point) (p := fun _ => True) (f := itemBytes)
    (fun n l b => (readItems_iff n l b).trans (by rw [true_and])) its b
  rwa [true_and] at h

theorem readPointsBody_iff (pts : List PointIdx) (b : List Byte) :
    readPointsBody b = some pts ↔ 1 ≤ pts.length ∧ pts.length ≤ 16 ∧ pts.Nodup ∧ b = pointsBody pts := by
  have h := readCounted_iff (key := (id : PointIdx → PointIdx)) (p := fun _ => True) (f := pointBytes)
    (fun n l b => (readPoints_iff n l b).trans (by rw [true_and])) pts b
  rwa [true_and, List.map_id] at h

theorem readParamsBody_iff (ps : List (ParamId × Byte)) (b : List Byte) :
    readParamsBody b = some ps ↔
      1 ≤ ps.length ∧ ps.length ≤ 16 ∧ (ps.map Prod.fst).Nodup ∧ b = paramsBody ps := by
  have h := readCounted_iff (key := (Prod.fst : ParamId × Byte → ParamId)) (p := fun _ => True)
    (f := fun l => l.flatMap fun i => [i.1.code, i.2])
    (fun n l b => (readParams_iff n l b).trans (by rw [true_and])) ps b
  rwa [true_and] at h

theorem readModifyBody_iff (p : PointIdx) (o : BitOp) (i : Fin 16) (b : List Byte) :
    readModifyBody b = some (p, o, i) ↔ b = modifyBody p o i := by
  constructor
  · intro h
    unfold readModifyBody at h
    split at h
    · split at h
      next hp ho hi =>
        obtain ⟨⟩ := h
        rw [(readIdx_iff _ _).1 hp, (bitOpOf_iff _ _).1 ho, (readIdx_iff _ _).1 hi]
        rfl
      · contradiction
    · contradiction
  · rintro rfl
    simp [readModifyBody, modifyBody, readIdx_byteOf, (bitOpOf_iff o.code o).2 rfl]

theorem readItemBody_iff (it : Item) (b : List Byte) : readItemBody b = some it ↔ b = itemBody it := by
  constructor
  · intro h
    unfold readItemBody at h
    split at h
    · split at h
      next hp =>
        obtain ⟨⟩ := h
        rw [(readIdx_iff _ _).1 hp, itemBody, wordBytes_wordOf]
      · contradiction
    · contradiction
  · rintro rfl
    simp [readItemBody, itemBody, wordBytes, readIdx_byteOf, wordOf_wordBytes]

theorem readTestBody_iff (p : PointIdx) (i : Fin 16) (b : List Byte) :
    readTestBody b = some (p, i) ↔ b = testBody p i := by
  constructor
  · intro h
    unfold readTestBody at h
    split at h
    · split at h
      next hp hi =>
        obtain ⟨⟩ := h
        rw [(readIdx_iff _ _).1 hp, (readIdx_iff _ _).1 hi]
        rfl
      · contradiction
    · contradiction
  · rintro rfl
    simp [readTestBody, testBody, readIdx_byteOf]

theorem readPointBody_iff (p : PointIdx) (b : List Byte) : readPointBody b = some p ↔ b = pointBody p := by
  constructor
  · intro h
    unfold readPointBody at h
    split at h
    · rw [(readIdx_iff _ _).1 h]
      rfl
    · contradiction
  · rintro rfl
    exact readIdx_byteOf p

theorem readEmptyBody_iff (b : List Byte) : readEmptyBody b = some () ↔ b = [] := by
  cases b <;> simp [readEmptyBody]

theorem readConfigureBody_iff (n : NodeIdx) (ds : List Decl) (b : List Byte) :
    readConfigureBody b = some (n, ds) ↔
      1 ≤ ds.length ∧ ds.length ≤ 16 ∧ (ds.map Decl.point).Nodup ∧ (∀ d ∈ ds, 1 ≤ d.width ∧ d.width ≤ 16) ∧
        b = configureBody n ds := by
  have hcount (rest : List Byte) : readCounted readDecls Decl.point rest = some ds ↔ _ :=
    readCounted_iff (p := fun l => ∀ d ∈ l, 1 ≤ d.width ∧ d.width ≤ 16) (f := fun l => l.flatMap declBytes)
      readDecls_iff ds rest
  cases b with
  | nil => simp [readConfigureBody, configureBody]
  | cons a rest =>
    constructor
    · intro h
      simp only [readConfigureBody] at h
      split at h
      next m es hn hd =>
        obtain ⟨⟩ := h
        obtain ⟨h1, h16, hnd, hw, rfl⟩ := (hcount rest).1 hd
        rw [(ofAddr_iff _ _).1 hn]
        exact ⟨h1, h16, hnd, hw, rfl⟩
      · contradiction
    · rintro ⟨h1, h16, hnd, hw, hb⟩
      obtain ⟨rfl, hrest⟩ := List.cons.inj hb
      simp only [readConfigureBody, ofAddr_byteOf, (hcount rest).2 ⟨h1, h16, hnd, hw, hrest⟩]

theorem readNodeBody_iff (n : NodeIdx) (b : List Byte) : readNodeBody b = some n ↔ b = nodeBody n := by
  constructor
  · intro h
    unfold readNodeBody at h
    split at h
    · rw [(ofAddr_iff _ _).1 h]
      rfl
    · contradiction
  · rintro rfl
    exact ofAddr_byteOf n

theorem readModeBody_iff (m : ModeRequest) (b : List Byte) : readModeBody b = some m ↔ b = modeBody m := by
  constructor
  · intro h
    unfold readModeBody at h
    split at h
    · split at h
      next hb =>
        obtain ⟨⟩ := h
        rw [hb]
        rfl
      next =>
        split at h
        next hb =>
          obtain ⟨⟩ := h
          rw [hb]
          rfl
        · contradiction
    · contradiction
  · rintro rfl
    cases m <;> rfl

theorem readOptionBody_iff (c : Bool) (b : List Byte) : readOptionBody b = some c ↔ b = optionBody c := by
  constructor
  · intro h
    unfold readOptionBody at h
    split at h
    · split at h
      next hb =>
        obtain ⟨⟩ := h
        rw [hb]
        rfl
      next =>
        split at h
        next hb =>
          obtain ⟨⟩ := h
          rw [hb]
          rfl
        · contradiction
    · contradiction
  · rintro rfl
    cases c <;> rfl

theorem readNumberBody_iff (k : Nat) (b : List Byte) :
    readNumberBody b = some k ↔ 1 ≤ k ∧ k ≤ 8 ∧ b = numberBody k := by
  constructor
  · intro h
    unfold readNumberBody at h
    split at h
    · split at h
      next hk =>
        obtain ⟨⟩ := h
        exact ⟨hk.1, hk.2, by rw [numberBody, byteOf_of_toNat]⟩
      · contradiction
    · contradiction
  · rintro ⟨h1, h8, rfl⟩
    simp [readNumberBody, numberBody, byteOf_toNat (show k < 256 by omega), h1, h8]

theorem readMaskBody_iff (m : BitVec 5) (b : List Byte) : readMaskBody b = some m ↔ b = maskBody m := by
  constructor
  · intro h
    unfold readMaskBody at h
    split at h
    · split at h
      next x hx =>
        obtain ⟨⟩ := h
        refine congrArg (· :: []) (BitVec.eq_of_toNat_eq ?_)
        simp only [BitVec.toNat_setWidth, BitVec.toNat_ofNat]
        omega
      · contradiction
    · contradiction
  · rintro rfl
    have hm : m.toNat % 256 = m.toNat := Nat.mod_eq_of_lt (by omega)
    have hlt : m.toNat < 32 := m.isLt
    simp [readMaskBody, maskBody, hm, hlt]

/-- The body of a frame reads as one of this kind. -/
def ReqKind.bodyReads (k : ReqKind) (rq : Request) : Bool :=
  match k with
  | .write | .stage => (rq.sizedBody.bind readItemsBody).isSome
  | .modify => (rq.sizedBody.bind readModifyBody).isSome
  | .read => (rq.sizedBody.bind readPointsBody).isSome
  | .release => (rq.sizedBody.bind readItemBody).isSome
  | .test => (rq.sizedBody.bind readTestBody).isSome
  | .claim | .unclaim => (rq.sizedBody.bind readPointBody).isSome
  | .commit | .discard | .readParameters | .flush | .fullReset | .readNotices =>
    (rq.sizedBody.bind readEmptyBody).isSome
  | .configureNode => (rq.sizedBody.bind readConfigureBody).isSome
  | .removeNode | .parkNode | .unparkNode | .nodeStatus => (rq.sizedBody.bind readNodeBody).isSome
  | .setParameters => (rq.sizedBody.bind readParamsBody).isSome
  | .setMode => (rq.sizedBody.bind readModeBody).isSome
  | .readStatus | .readCounters => (rq.sizedBody.bind readOptionBody).isSome
  | .readExceptions => (rq.sizedBody.bind readNumberBody).isSome
  | .setNoticeMask => (rq.sizedBody.bind readMaskBody).isSome

/-- A body from which nothing is read does not read. -/
theorem not_reads_of_none {α : Type} {o : Option α} (h : o = none) : o.isSome = false := by rw [h]; rfl

/-- The destination is not one that the kind is sent to. -/
def ReqKind.strays (k : ReqKind) (rq : Request) : Prop :=
  if k.nodeKind then NodeIdx.ofAddr? rq.destination.toNat = none else rq.destination.toNat ≠ 0

/-- The kinds of the management group (R71, R166). -/
def ReqKind.managed (k : ReqKind) : Bool := !k.nodeKind && k != .commit && k != .discard

end Sys2Proof

namespace Sys2Proof.Machine

variable {s : State} {rq : Request}

/-! ## A fault of structure (R68, R177) -/

theorem managementRequest_of_malformed {α : Type} {k : ReqKind} {rd : List Byte → Option α}
    {act : α → State → State} (ht : s.takesFrames = true)
    (h : rq.destination.toNat ≠ 0 ∨ rq.sizedBody.bind rd = none) :
    managementRequest k rd rq act s = malformed k.code rq s := segmentRequest_of_malformed ht h

/-- R68, R177: a frame sent astray, or with a body that does not read. -/
theorem takeRequest_of_malformed (k : ReqKind) (ht : s.takesFrames = true)
    (h : k.strays rq ∨ k.bodyReads rq = false) : takeRequest k rq s = malformed k.code rq s := by
  have hnone {α : Type} {o : Option α} (h : o.isSome = false) : o = none := Option.isNone_iff_eq_none.mp (by simp_all)
  cases k with
  | write | modify | read | release | test | claim | unclaim | stage =>
    exact nodeRequest_of_malformed ht (h.imp id hnone)
  | commit | discard =>
    simp only [takeRequest]
    exact segmentRequest_of_malformed ht (h.imp id hnone)
  | configureNode | removeNode | parkNode | unparkNode | nodeStatus | setParameters | readParameters | setMode
  | flush | fullReset | readStatus | readExceptions | readNotices | setNoticeMask | readCounters =>
    simp only [takeRequest]
    exact managementRequest_of_malformed ht (h.imp id hnone)

theorem echoKind_code (k : ReqKind) : echoKind k.code = k.code := by cases k <;> rfl

/-- The MALFORMED answer to a frame of a known kind. -/
theorem malformed_code (k : ReqKind) (rq : Request) (s : State) :
    malformed k.code rq s = answer s
      { originator := rq.originator, tag := rq.tag, kind := k.code, status := .malformed, flags := {}, body := [] }
      (s.count .trunkMalformed) := by
  rw [malformed, echoKind_code]

theorem strays_of_high (k : ReqKind) (h : 49 ≤ rq.destination.toNat) : k.strays rq := by
  unfold ReqKind.strays
  split
  · exact (ofAddr_none_iff _).2 (.inr h)
  · omega

/-- R68: the answer to an unknown kind code or to a destination of 49..63 is the same. -/
theorem takeFrame_of_malformed {kind : Byte} (ht : s.takesFrames = true)
    (h : ReqKind.ofCode? kind = none ∨ 49 ≤ rq.destination.toNat) : takeFrame kind rq s = malformed kind rq s := by
  unfold takeFrame
  split
  next k hk =>
    obtain h | h := h
    · rw [h] at hk
      contradiction
    · rw [takeRequest_of_malformed k ht (.inl (strays_of_high k h)), code_of_ofCode hk]
  next => rw [if_pos ht]

/-! ## A frame that fails its check (R67, R176) -/

theorem checkGood_of_fault {f : List Byte}
    (h : f.length < 6 ∨ f.drop (f.length - 2) ≠ wordBytes (crc16 (f.take (f.length - 2)))) : checkGood f = false := by
  obtain h | h := h
  · simp [checkGood, Nat.not_le.mpr h]
  · simp [checkGood, h]

theorem receiveFrame_of_fault {f : List Byte} {cut : Bool} (ht : s.takesFrames = true)
    (h : cut = true ∨ checkGood f = false) : receiveFrame f cut s = closeEvent s (s.count .trunkCrcErrors) := by
  have hf : (cut || !checkGood f) = true := by
    obtain h | h := h <;> simp [h]
  simp only [receiveFrame, ht, hf, if_true]
  rfl

/-! ## The manager set (R71) -/

theorem takeRequest_of_not_manager {k : ReqKind} (hk : k.managed = true) (ht : s.takesFrames = true)
    (hd : rq.destination.toNat = 0) (hb : k.bodyReads rq = true) (hm : s.params.isManager rq.originator = false) :
    takeRequest k rq s = answer s (replyTo rq k .notPermitted) s := by
  cases k with
  | write | modify | read | release | test | claim | unclaim | stage | commit | discard => contradiction
  | configureNode | removeNode | parkNode | unparkNode | nodeStatus | setParameters | readParameters | setMode
  | flush | fullReset | readStatus | readExceptions | readNotices | setNoticeMask | readCounters =>
    obtain ⟨a, ha⟩ := Option.isSome_iff_exists.mp hb
    simp only [takeRequest]
    exact managementRequest_of_not_manager ht ⟨hd, ha⟩ hm

/-! ## The arrival checks (R70 to R72) -/

variable {k : ReqKind} {n : NodeIdx} {pts : List PointIdx} {bit : Option (PointIdx × Fin 16)} {st : Status}

theorem afterArrivalCheck_of_some {go : State → State} (h : arrivalCheck s k n pts bit = some st) :
    afterArrivalCheck k rq n pts bit go s = answer s (replyTo rq k st) s := by simp only [afterArrivalCheck, h]

theorem afterArrivalCheck_of_none {go : State → State} (h : arrivalCheck s k n pts bit = none) :
    afterArrivalCheck k rq n pts bit go s = go s := by simp only [afterArrivalCheck, h]

theorem arrivalCheck_offline (hk : k.forwarded = true) (hm : s.mode ≠ .run) :
    arrivalCheck s k n pts bit = some .offline := by simp [arrivalCheck, hk, hm]

theorem arrivalCheck_nodeState (hm : k.forwarded = true → s.mode = .run)
    (hn : nodeStateRefuses k (s.node n).state = true) : arrivalCheck s k n pts bit = some .nodeState := by
  have h3 : (k.forwarded && s.mode != .run) = false := by
    cases hk : k.forwarded with
    | false => rfl
    | true => simp [hm hk]
  simp [arrivalCheck, h3, hn]

theorem arrivalCheck_undeclared (hm : k.forwarded = true → s.mode = .run)
    (hn : nodeStateRefuses k (s.node n).state = false) (hp : ∃ p ∈ pts, (s.point n p).width = none) :
    arrivalCheck s k n pts bit = some .undeclared := by
  have h3 : (k.forwarded && s.mode != .run) = false := by
    cases hk : k.forwarded with
    | false => rfl
    | true => simp [hm hk]
  have h5 : (pts.any fun p => (s.point n p).width.isNone) = true := by
    obtain ⟨p, hp, hw⟩ := hp
    exact List.any_eq_true.mpr ⟨p, hp, by rw [hw]; rfl⟩
  simp [arrivalCheck, h3, hn, h5]

/-- The frame is well formed for this node kind, its node and the points it names being these. -/
def Names (k : ReqKind) (rq : Request) (n : NodeIdx) (pts : List PointIdx) : Prop :=
  match k with
  | .write | .stage => ∃ items, ForNode readItemsBody rq n items ∧ pts = items.map Item.point
  | .modify => ∃ m, ForNode readModifyBody rq n m ∧ pts = [m.1]
  | .read => ForNode readPointsBody rq n pts
  | .release => ∃ it, ForNode readItemBody rq n it ∧ pts = [it.point]
  | .test => ∃ t, ForNode readTestBody rq n t ∧ pts = [t.1]
  | .claim | .unclaim => ∃ p, ForNode readPointBody rq n p ∧ pts = [p]
  | _ => False

/-- A well-formed node frame that fails one of checks 3 to 5 is refused, whatever its bit. -/
theorem takeRequest_of_refused (ht : s.takesFrames = true) (hn : Names k rq n pts)
    (hc : ∀ bit, arrivalCheck s k n pts bit = some st) :
    takeRequest k rq s = answer s (replyTo rq k st) s := by
  cases k with
  | write | modify | release | test | claim | unclaim | stage =>
    obtain ⟨a, ha, rfl⟩ := hn
    exact (nodeRequest_of_forNode ht ha).trans (afterArrivalCheck_of_some (hc _))
  | read => exact (nodeRequest_of_forNode ht hn).trans (afterArrivalCheck_of_some (hc _))
  | commit | discard | configureNode | removeNode | parkNode | unparkNode | nodeStatus | setParameters
  | readParameters | setMode | flush | fullReset | readStatus | readExceptions | readNotices | setNoticeMask
  | readCounters => exact absurd hn id

end Sys2Proof.Machine

open Sys2Proof Sys2Proof.Machine

/-- Settles O10: by the order in which the Trunk Port checks a frame. -/
theorem framesTheTrunkPortAnswersItself : Obligations.FramesTheTrunkPortAnswersItself := by
  refine ⟨fun f cut s ht h => exec_of_effect (receiveFrame_of_fault ht (h.imp_right checkGood_of_fault)),
    fun k rq s ht h => exec_of_effect (takeFrame_of_malformed ht h), fun f cut k rq s h => ?_⟩
  have ht := takesFrames_of_closing h
  exact ⟨exec_of_effect (receiveFrame_of_not_taken f false ht), exec_of_effect (receiveFrame_of_not_taken f cut ht),
    exec_of_effect (takeFrame_of_not_taken k ht), fun rk => takeRequest_of_not_taken rk ht⟩

/-- Settles O11: the readers by the byte lists they take, the refusals by the checks in their order. -/
theorem refusedBeforeTheEffect : Obligations.RefusedBeforeTheEffect := by
  refine ⟨⟨takesFrames_iff, fun k => ?_, ofAddr_some_iff, sizedBody_iff⟩, fun b => ?_,
    ⟨fun _ _ _ _ _ => rfl, fun _ _ _ => rfl⟩, fun rq s ht => ?_, fun k rq s ht hk h => ?_, fun rq n s k pts ht h => ?_,
    fun rq n s k pts ht h => ?_⟩
  · cases k <;> decide
  · exact ⟨fun its => readItemsBody_iff its b, fun pts => readPointsBody_iff pts b,
      fun p o i => (readModifyBody_iff p o i b).trans (by cases o <;> rfl), fun it => readItemBody_iff it b,
      fun p i => readTestBody_iff p i b, fun p => readPointBody_iff p b, readEmptyBody_iff b,
      fun n ds => readConfigureBody_iff n ds b, fun n => readNodeBody_iff n b, fun ps => readParamsBody_iff ps b,
      readModeBody_iff .run b, readModeBody_iff .drain b, readOptionBody_iff false b, readOptionBody_iff true b,
      fun k => readNumberBody_iff k b, fun m => readMaskBody_iff m b⟩
  · have hno (k : ReqKind) (h : k.strays rq ∨ k.bodyReads rq = false) :=
      exec_of_effect ((effect_command k rq s).trans ((takeRequest_of_malformed k ht h).trans (malformed_code k rq s)))
    exact ⟨fun h => ⟨hno .write (h.imp_right not_reads_of_none), hno .stage (h.imp_right not_reads_of_none)⟩,
      fun h => hno .modify (h.imp_right not_reads_of_none), fun h => hno .read (h.imp_right not_reads_of_none),
      fun h => hno .release (h.imp_right not_reads_of_none), fun h => hno .test (h.imp_right not_reads_of_none),
      fun h => ⟨hno .claim (h.imp_right not_reads_of_none), hno .unclaim (h.imp_right not_reads_of_none)⟩⟩
  · rw [← malformed_code]
    refine takeRequest_of_malformed k ht ?_
    obtain h | ⟨hk, h⟩ | ⟨rfl, h⟩ | ⟨hk, h⟩ | ⟨rfl, h⟩ | ⟨rfl, h⟩ | ⟨hk, h⟩ | ⟨rfl, h⟩ | ⟨rfl, h⟩ := h
    · exact .inl (by simpa [ReqKind.strays, hk] using h)
    all_goals refine .inr ?_
    · fin_cases hk <;> exact not_reads_of_none h
    · exact not_reads_of_none h
    · fin_cases hk <;> exact not_reads_of_none h
    · exact not_reads_of_none h
    · exact not_reads_of_none h
    · fin_cases hk <;> exact not_reads_of_none h
    · exact not_reads_of_none h
    · exact not_reads_of_none h
  · have hk : k.forwarded = true ∧ Names k rq n pts := by
      obtain ⟨rfl, h⟩ | ⟨rfl, h⟩ | ⟨rfl, h⟩ | ⟨rfl, h⟩ := h <;> exact ⟨rfl, h⟩
    refine ⟨fun hm => takeRequest_of_refused ht hk.2 fun _ => arrivalCheck_offline hk.1 hm,
      fun hm hn => takeRequest_of_refused ht hk.2 fun _ => arrivalCheck_nodeState (fun _ => hm) ?_,
      fun hm hn hp => takeRequest_of_refused ht hk.2 fun _ => arrivalCheck_undeclared (fun _ => hm) ?_ hp⟩
    · obtain hn | hn := hn <;> simp [nodeStateRefuses, hn, hk.1]
    · obtain hn | hn | hn := (inService_iff _).1 hn <;> simp [nodeStateRefuses, hn]
  · have hk : k.forwarded = false ∧ Names k rq n pts := by
      obtain ⟨rfl, h⟩ | ⟨hk, h⟩ | ⟨rfl, h⟩ := h
      · exact ⟨rfl, h⟩
      · fin_cases hk <;> exact ⟨rfl, h⟩
      · exact ⟨rfl, h⟩
    have hm : k.forwarded = true → s.mode = .run := by simp [hk.1]
    refine ⟨fun hn => takeRequest_of_refused ht hk.2 fun _ => arrivalCheck_nodeState hm ?_,
      fun ha hp hw => takeRequest_of_refused ht hk.2 fun _ => arrivalCheck_undeclared hm ?_ hw⟩
    · obtain hn | ⟨rfl, hn⟩ := hn <;> simp [nodeStateRefuses, hn]
    · cases hst : (s.node n).state with
      | absent => exact absurd hst ha
      | parked => simpa [nodeStateRefuses, hk.1] using fun h => hp h hst
      | live | lapsed | silent => rfl

/-- Settles O12: by the kind, whose body reads. -/
theorem managementNeedsTheManagerSet : Obligations.ManagementNeedsTheManagerSet := by
  rintro k rq s ht hd hm ⟨body, hb, h⟩
  have hreads {α : Type} {rd : List Byte → Option α} (h : (rd body).isSome = true) :
      (rq.sizedBody.bind rd).isSome = true := by
    rw [hb]
    exact h
  have hk : k.managed = true ∧ k.bodyReads rq = true := by
    obtain ⟨rfl, h⟩ | ⟨hk, h⟩ | ⟨rfl, h⟩ | ⟨hk, rfl⟩ | ⟨rfl, h⟩ | ⟨hk, h⟩ | ⟨rfl, h⟩ | ⟨rfl, h⟩ := h
    · exact ⟨rfl, hreads h⟩
    · fin_cases hk <;> exact ⟨rfl, hreads h⟩
    · exact ⟨rfl, hreads h⟩
    · fin_cases hk <;> exact ⟨rfl, hreads (rd := readEmptyBody) rfl⟩
    · exact ⟨rfl, hreads h⟩
    · fin_cases hk <;> exact ⟨rfl, hreads h⟩
    · exact ⟨rfl, hreads h⟩
    · exact ⟨rfl, hreads h⟩
  exact takeRequest_of_not_manager hk.1 ht hd hk.2 hm

end

section
/-! SUPPORT. What every command keeps of the declarations (R4, R165), and the events that cannot take place in the
present state. -/

namespace Sys2Proof.Machine

variable {α : Type} {s t : State} {rq : Request}

/-! ## Declarations, request by request -/

theorem answer_sameDecls (b : State) (r : Response) (h : SameDecls s t) : SameDecls s (answer b r t) :=
  sameDecls_of_nodes (answer_nodes ..) h

theorem closeEvent_sameDecls (b : State) (h : SameDecls s t) : SameDecls s (closeEvent b t) :=
  sameDecls_of_nodes (closeEvent_nodes ..) h

theorem respond_sameDecls (r : Response) (h : SameDecls s t) : SameDecls s (t.respond r) :=
  sameDecls_of_nodes (respond_nodes ..) h

theorem malformed_sameDecls {kind : Byte} : SameDecls s (malformed kind rq s) :=
  answer_sameDecls _ _ (sameDecls_of_nodes (count_nodes ..) (sameDecls_refl s))

/-- A node request whose own part keeps the declarations does. -/
theorem nodeRequest_sameDecls {k : ReqKind} {rd : List Byte → Option α} {act : NodeIdx → α → State → State}
    (ha : ∀ n a, SameDecls s (act n a s)) : SameDecls s (nodeRequest k rd rq act s) :=
  nodeRequest_keeps (sameDecls_refl s) (malformed_sameDecls) ha

theorem segmentRequest_sameDecls {k : ReqKind} {rd : List Byte → Option α} {act : α → State → State}
    (ha : ∀ a, SameDecls s (act a s)) : SameDecls s (segmentRequest k rd rq act s) :=
  segmentRequest_keeps (sameDecls_refl s) (malformed_sameDecls) ha

theorem managementRequest_sameDecls {k : ReqKind} {rd : List Byte → Option α} {act : α → State → State}
    (ha : ∀ a, SameDecls s (act a s)) : SameDecls s (managementRequest k rd rq act s) :=
  segmentRequest_sameDecls fun a => by
    split
    · exact ha a
    · exact answer_sameDecls _ _ (sameDecls_refl s)

theorem afterArrivalCheck_sameDecls {k : ReqKind} {n : NodeIdx} {pts : List PointIdx}
    {bit : Option (PointIdx × Fin 16)} {go : State → State} (h : SameDecls s (go s)) :
    SameDecls s (afterArrivalCheck k rq n pts bit go s) := by
  unfold afterArrivalCheck
  split
  · exact answer_sameDecls _ _ (sameDecls_refl s)
  · exact h

theorem joinForward_sameDecls {k : ReqKind} {n : NodeIdx} {op : NodeOp} {c : CondSet} :
    SameDecls s (s.joinForward k rq n op c) := sameDecls_of_nodes (joinForward_nodes ..) (sameDecls_refl s)

theorem overrangeCheck_sameDecls {k : ReqKind} {n : NodeIdx} {items : List Item}
    {go : List Item → CondSet → State → State} (h : ∀ its c, SameDecls s (go its c s)) :
    SameDecls s (overrangeCheck k rq n items go s) := by
  unfold overrangeCheck
  split
  · exact h _ _
  · split
    · exact respond_sameDecls _ (sameDecls_of_nodes (potentRefusal_nodes ..) (sameDecls_refl s))
    · exact h _ _

theorem releaseArrival_sameDecls {n : NodeIdx} {it : Item} {c : CondSet} :
    SameDecls s (releaseArrival rq n it c s) := by
  unfold releaseArrival
  split
  · exact respond_sameDecls _ (sameDecls_refl s)
  · exact joinForward_sameDecls

theorem decideClaim_sameDecls {n : NodeIdx} {p : PointIdx} : SameDecls s (decideClaim rq n p s) := by
  have hn {t : State} (r : Response) (h : t.nodes = s.nodes) : SameDecls s (answer s r t) :=
    answer_sameDecls _ _ (sameDecls_of_nodes h (sameDecls_refl s))
  unfold decideClaim
  dsimp only
  split
  · split <;> exact hn _ rfl
  · split <;> exact hn _ rfl

theorem decideUnclaim_sameDecls {n : NodeIdx} {p : PointIdx} :
    SameDecls s (decideUnclaim rq n p s) := by
  have hn {t : State} (r : Response) (h : t.nodes = s.nodes) : SameDecls s (answer s r t) :=
    answer_sameDecls _ _ (sameDecls_of_nodes h (sameDecls_refl s))
  unfold decideUnclaim
  split
  · exact hn _ rfl
  · split <;> exact hn _ rfl

theorem decideStage_sameDecls {n : NodeIdx} {items : List Item} {c : CondSet} :
    SameDecls s (decideStage rq n items c s) := by
  have hn {t : State} (r : Response) (h : t.nodes = s.nodes) : SameDecls s (t.respond r) :=
    respond_sameDecls _ (sameDecls_of_nodes h (sameDecls_refl s))
  unfold decideStage
  dsimp only
  split
  iterate 2 exact hn _ rfl
  all_goals
    split
    · exact hn _ rfl
    · split
      · exact hn _ (by simp)
      · exact hn _ (by simp)

theorem flushMode_sameDecls (h : SameDecls s t) : SameDecls s t.flushMode :=
  sameDecls_of_nodes (flushMode_nodes t) h

theorem abortCommit_sameDecls (h : SameDecls s t) : SameDecls s t.abortCommit := by
  unfold State.abortCommit
  split
  · exact sameDecls_of_nodes (abortStage_nodes ..) (dropPending_sameDecls _ h)
  · exact h

theorem flushWork_sameDecls (h : SameDecls s t) : SameDecls s t.flushWork :=
  sameDecls_of_nodes (abortQueued_nodes _) (abortCommit_sameDecls (sameDecls_of_nodes (answerForward_nodes ..) h))

theorem decideMode_sameDecls (m : ModeRequest) (s : State) : SameDecls s (decideMode rq m s) := by
  unfold decideMode
  split
  · exact arbitrate_sameDecls (answer_sameDecls _ _ (wakeAll_sameDecls (sameDecls_refl s)))
  · exact finish_sameDecls _ (respond_sameDecls _ (sameDecls_of_nodes (by simp) (sameDecls_refl s)))
  all_goals exact answer_sameDecls _ _ (sameDecls_refl s)

/-- R4: the requests other than CONFIGURE NODE, REMOVE NODE and FULL RESET change no declaration. -/
theorem takeRequest_sameDecls {k : ReqKind} (hc : k ≠ .configureNode) (hr : k ≠ .removeNode) (hf : k ≠ .fullReset) :
    SameDecls s (takeRequest k rq s) := by
  have hself := sameDecls_refl s
  have hn {t : State} (r : Response) (h : t.nodes = s.nodes) : SameDecls s (answer s r t) :=
    answer_sameDecls _ _ (sameDecls_of_nodes h hself)
  have hpark {n : NodeIdx} {e : NodeEntry} (r : Response) (h : e.points = (s.node n).points) :
      SameDecls s (finish s ((s.setNode n e).respond r)) :=
    finish_sameDecls _ (respond_sameDecls _ (setNode_sameDecls_of_points h hself))
  cases k with
  | configureNode => exact absurd rfl hc
  | removeNode => exact absurd rfl hr
  | fullReset => exact absurd rfl hf
  | write =>
    exact nodeRequest_sameDecls fun n its => afterArrivalCheck_sameDecls <| finish_sameDecls _ <|
      overrangeCheck_sameDecls fun _ _ => joinForward_sameDecls
  | modify =>
    exact nodeRequest_sameDecls fun n m => afterArrivalCheck_sameDecls <| finish_sameDecls _ <|
      joinForward_sameDecls
  | read =>
    exact nodeRequest_sameDecls fun n m => afterArrivalCheck_sameDecls <| finish_sameDecls _ <|
      joinForward_sameDecls
  | release =>
    exact nodeRequest_sameDecls fun n it => afterArrivalCheck_sameDecls <| finish_sameDecls _ <|
      overrangeCheck_sameDecls fun _ _ => releaseArrival_sameDecls
  | test => exact nodeRequest_sameDecls fun n t => afterArrivalCheck_sameDecls <| hn _ rfl
  | claim => exact nodeRequest_sameDecls fun n p => afterArrivalCheck_sameDecls <| decideClaim_sameDecls
  | unclaim => exact nodeRequest_sameDecls fun n p => afterArrivalCheck_sameDecls <| decideUnclaim_sameDecls
  | stage =>
    exact nodeRequest_sameDecls fun n its => afterArrivalCheck_sameDecls <| closeEvent_sameDecls _ <|
      overrangeCheck_sameDecls fun _ _ => decideStage_sameDecls
  | commit =>
    simp only [takeRequest]
    refine segmentRequest_sameDecls fun _ => ?_
    split
    · split
      · exact finish_sameDecls _ (sameDecls_of_nodes (takeCommit_nodes _) hself)
      all_goals exact hn _ rfl
    · exact hn _ rfl
  | discard =>
    simp only [takeRequest]
    refine segmentRequest_sameDecls fun _ => ?_
    dsimp only
    split
    · exact hn _ rfl
    · exact hn _ rfl
    · exact hn _ (unqueueStage_nodes ..)
    · exact hn _ rfl
  | parkNode =>
    refine managementRequest_sameDecls fun n => ?_
    dsimp only
    split
    · exact hn _ rfl
    · exact hn _ rfl
    all_goals exact hpark _ rfl
  | unparkNode =>
    refine managementRequest_sameDecls fun n => ?_
    dsimp only
    split
    · exact hpark _ rfl
    all_goals exact hn _ rfl
  | nodeStatus => exact managementRequest_sameDecls fun n => hn _ rfl
  | setParameters =>
    refine managementRequest_sameDecls fun items => ?_
    dsimp only
    split
    · exact hn _ rfl
    · split
      · exact arbitrate_sameDecls (hn _ rfl)
      · exact hn _ rfl
  | readParameters => exact managementRequest_sameDecls fun _ => hn _ rfl
  | setMode => exact managementRequest_sameDecls fun m => decideMode_sameDecls m s
  | flush =>
    exact managementRequest_sameDecls fun _ =>
      finish_sameDecls _ (respond_sameDecls _ (flushMode_sameDecls (flushWork_sameDecls hself)))
  | readStatus => exact managementRequest_sameDecls fun clear => hn _ (by split <;> rfl)
  | readExceptions => exact managementRequest_sameDecls fun _ => hn _ rfl
  | readNotices => exact managementRequest_sameDecls fun _ => hn _ rfl
  | setNoticeMask => exact managementRequest_sameDecls fun _ => hn _ rfl
  | readCounters => exact managementRequest_sameDecls fun clear => hn _ (by split <;> rfl)

/-! ## Declarations, command by command -/

/-- The state is the one that a full reset leaves, whatever the level of the pin. -/
def ResetTaken (s t : State) : Prop := ∃ low : Bool, t = { s.fullReset with resetLow := low }

theorem resetTaken_fullReset (s : State) : ResetTaken s s.fullReset := ⟨s.resetLow, rfl⟩

/-- What the frame of a kind, if its kind is known, can do to the declarations. -/
def Declares (k : Option ReqKind) (s t : State) : Prop :=
  k = some .configureNode ∨ k = some .removeNode ∨ (k = some .fullReset ∧ ResetTaken s t) ∨ SameDecls s t

theorem Declares.same {k : Option ReqKind} (h : SameDecls s t) : Declares k s t := .inr (.inr (.inr h))

/-- R84: a FULL RESET makes the TP CLOSING, or takes the full reset at once. -/
theorem fullResetRequest_declares : SameDecls s (fullResetRequest rq s) ∨ ResetTaken s (fullResetRequest rq s) := by
  refine segmentRequest_keeps (P := fun t => SameDecls s t ∨ ResetTaken s t) (.inl (sameDecls_refl s))
    (.inl (malformed_sameDecls)) fun a => ?_
  dsimp only
  split
  · split
    · exact .inl (sameDecls_of_nodes (respond_nodes ..) (sameDecls_refl s))
    · exact .inr (resetTaken_fullReset s)
  · exact .inl (answer_sameDecls _ _ (sameDecls_refl s))

theorem takeRequest_declares (k : ReqKind) : Declares (some k) s (takeRequest k rq s) := by
  by_cases hc : k = .configureNode
  · exact .inl (congrArg some hc)
  by_cases hr : k = .removeNode
  · exact .inr (.inl (congrArg some hr))
  by_cases hf : k = .fullReset
  · subst hf
    obtain h | h := fullResetRequest_declares (s := s) (rq := rq)
    · exact .same h
    · exact .inr (.inr (.inl ⟨rfl, h⟩))
  · exact .same (takeRequest_sameDecls hc hr hf)

theorem takeFrame_declares (kind : Byte) : Declares (ReqKind.ofCode? kind) s (takeFrame kind rq s) := by
  unfold takeFrame
  split
  next k hk => exact hk ▸ takeRequest_declares k
  next =>
    refine .same ?_
    split
    · exact malformed_sameDecls
    · exact sameDecls_refl s

theorem receiveFrame_declares (f : List Byte) (cut : Bool) :
    Declares ((readTrunkFrame f).bind fun h => ReqKind.ofCode? h.1) s (receiveFrame f cut s) := by
  have hcrc : SameDecls s (crcFailure s) :=
    closeEvent_sameDecls _ (sameDecls_of_nodes (count_nodes ..) (sameDecls_refl s))
  unfold receiveFrame
  split
  · split
    · exact .same hcrc
    · split
      next kind rq hf =>
        rw [hf]
        exact takeFrame_declares kind
      next => exact .same hcrc
  · exact .same (sameDecls_refl s)

theorem dropReceive_sameDecls (f : List Byte) (h : SameDecls s t) : SameDecls s (t.dropReceive f) := by
  have hcount : SameDecls s (finish t (t.count .dropReplyFaults)) :=
    finish_sameDecls _ (sameDecls_of_nodes (count_nodes ..) h)
  unfold State.dropReceive
  split
  · exact hcount
  · exact h
  · split
    · exact h
    · split
      · exact hcount
      · exact finish_sameDecls _ (handOver_sameDecls _ _ h)

theorem unicastEnd_sameDecls (h : SameDecls s t) : SameDecls s t.unicastEnd := by
  unfold State.unicastEnd
  split
  · split
    · exact sameDecls_of_nodes rfl h
    · exact h
  · exact h
  · exact h

theorem freeBus_sameDecls (h : SameDecls s t) : SameDecls s t.freeBus := sameDecls_of_nodes rfl h

theorem takeTransmitted_sameDecls (h : SameDecls s t) : SameDecls s t.takeTransmitted := by
  unfold State.takeTransmitted
  split
  · exact finish_sameDecls _ (takeEnded_sameDecls _ (freeBus_sameDecls h))
  all_goals exact h

theorem abandonTransmitted_sameDecls (h : SameDecls s t) : SameDecls s t.abandonTransmitted := by
  unfold State.abandonTransmitted
  split
  · split
    · exact h
    · exact finish_sameDecls _ (abandonEnded_sameDecls _ (freeBus_sameDecls h))
  all_goals exact h

theorem clearTransmitted_sameDecls (h : SameDecls s t) : SameDecls s t.clearTransmitted := by
  unfold State.clearTransmitted
  split
  · split
    · exact finish_sameDecls _ (sameDecls_of_nodes (clearEnded_nodes _) (freeBus_sameDecls h))
    · exact h
  all_goals exact h

theorem idleWindowReached_sameDecls (h : SameDecls s t) : SameDecls s t.idleWindowReached := by
  unfold State.idleWindowReached
  split
  · exact arbitrate_sameDecls (sameDecls_of_nodes rfl h)
  · exact h

theorem unlessReset_sameDecls {f : State → State} (h : SameDecls s (f s)) : SameDecls s (unlessReset f s) := by
  unfold unlessReset
  split
  · exact sameDecls_refl s
  · exact h

theorem advanceTimers_sameDecls (h : SameDecls s t) : SameDecls s t.advanceTimers := sameDecls_of_nodes rfl h

theorem busTimer_sameDecls (idleNow : Bool) (h : SameDecls s t) : SameDecls s (t.busTimer idleNow) := by
  unfold State.busTimer
  split
  · exact windowExpire_sameDecls h
  · split
    · exact arbitrate_sameDecls h
    · exact h

theorem tick_sameDecls (s : State) : SameDecls s s.tick := by
  have h1 : SameDecls s s.advanceTimers := advanceTimers_sameDecls (sameDecls_refl s)
  have h2 : SameDecls s { s.advanceTimers with freeIndex := s.advanceTimers.freeIndex + 1 } :=
    sameDecls_of_nodes rfl h1
  unfold State.tick
  dsimp only
  split
  · exact sameDecls_refl s
  · split
    · split
      · exact busTimer_sameDecls _ (phaseEvent_sameDecls h2)
      · exact phaseEvent_sameDecls (busTimer_sameDecls _ h2)
    · split
      · exact phaseEvent_sameDecls h1
      · split
        · exact busTimer_sameDecls _ h1
        · exact h1

/-- The commands other than frames that can take a full reset. -/
def resetCommands : List Instr := [.powerOn, .resetAsserted, .resetReleased, .fullResetTaken, .trunkFrameTransmitted]

theorem frameTransmitted_declares : ResetTaken s s.frameTransmitted ∨ SameDecls s s.frameTransmitted := by
  unfold State.frameTransmitted
  split
  · exact .inr (sameDecls_refl s)
  · split
    · exact .inl (resetTaken_fullReset s)
    · exact .inr (sameDecls_of_nodes rfl (sameDecls_refl s))

/-- R4, R165: what a command can do to the declarations. -/
theorem effect_declares (c : Instr) (s : State) :
    Declares c.frameKind? s (effect c s) ∨ (c ∈ resetCommands ∧ ResetTaken s (effect c s)) := by
  have hself := sameDecls_refl s
  have hev {f : State → State} {k : Option ReqKind} (h : SameDecls s (f s)) : Declares k s (unlessReset f s) :=
    .same (unlessReset_sameDecls h)
  cases c with
  | powerOn => exact .inr ⟨by simp [resetCommands], resetTaken_fullReset s⟩
  | resetAsserted => exact .inr ⟨by simp [resetCommands], true, rfl⟩
  | resetReleased =>
    show _ ∨ (_ ∧ ResetTaken s s.releaseReset)
    unfold State.releaseReset
    split
    · exact .inr ⟨by simp [resetCommands], false, rfl⟩
    next h =>
      refine .inl (.same ?_)
      show SameDecls s s.releaseReset
      rwa [State.releaseReset, if_neg h]
  | fullResetTaken =>
    show Declares none s (if s.resetLow then s else s.takeFullReset) ∨
      (_ ∧ ResetTaken s (if s.resetLow then s else s.takeFullReset))
    unfold State.takeFullReset
    split
    · exact .inl (.same hself)
    · split
      · exact .inr ⟨by simp [resetCommands], resetTaken_fullReset s⟩
      · exact .inl (.same hself)
  | trunkFrameTransmitted =>
    show Declares none s (if s.resetLow then s else s.frameTransmitted) ∨
      (_ ∧ ResetTaken s (if s.resetLow then s else s.frameTransmitted))
    split
    · exact .inl (.same hself)
    · obtain h | h := frameTransmitted_declares (s := s)
      · exact .inr ⟨by simp [resetCommands], h⟩
      · exact .inl (.same h)
  | trunkCrcFailure f cut => exact .inl (receiveFrame_declares f cut)
  | closingFrameDiscarded f => exact .inl (receiveFrame_declares f false)
  | unknownKindFrame kind rq => exact .inl (takeFrame_declares kind)
  | write rq => exact .inl (takeRequest_declares .write)
  | modify rq => exact .inl (takeRequest_declares .modify)
  | read rq => exact .inl (takeRequest_declares .read)
  | release rq => exact .inl (takeRequest_declares .release)
  | test rq => exact .inl (takeRequest_declares .test)
  | claim rq => exact .inl (takeRequest_declares .claim)
  | unclaim rq => exact .inl (takeRequest_declares .unclaim)
  | stage rq => exact .inl (takeRequest_declares .stage)
  | commit rq => exact .inl (takeRequest_declares .commit)
  | discard rq => exact .inl (takeRequest_declares .discard)
  | configureNode rq => exact .inl (takeRequest_declares .configureNode)
  | removeNode rq => exact .inl (takeRequest_declares .removeNode)
  | parkNode rq => exact .inl (takeRequest_declares .parkNode)
  | unparkNode rq => exact .inl (takeRequest_declares .unparkNode)
  | nodeStatus rq => exact .inl (takeRequest_declares .nodeStatus)
  | setParameters rq => exact .inl (takeRequest_declares .setParameters)
  | readParameters rq => exact .inl (takeRequest_declares .readParameters)
  | setMode rq => exact .inl (takeRequest_declares .setMode)
  | flush rq => exact .inl (takeRequest_declares .flush)
  | fullReset rq => exact .inl (takeRequest_declares .fullReset)
  | readStatus rq => exact .inl (takeRequest_declares .readStatus)
  | readExceptions rq => exact .inl (takeRequest_declares .readExceptions)
  | readNotices rq => exact .inl (takeRequest_declares .readNotices)
  | setNoticeMask rq => exact .inl (takeRequest_declares .setNoticeMask)
  | readCounters rq => exact .inl (takeRequest_declares .readCounters)
  | arbiterDecision => exact .inl (hev (arbitrate_sameDecls hself))
  | idleWindowElapsed => exact .inl (hev (idleWindowReached_sameDecls hself))
  | unicastTransmissionEnd => exact .inl (hev (unicastEnd_sameDecls hself))
  | takeTransmissionEnd => exact .inl (hev (takeTransmitted_sameDecls hself))
  | abandonTransmissionEnd => exact .inl (hev (abandonTransmitted_sameDecls hself))
  | clearTransmissionEnd => exact .inl (hev (clearTransmitted_sameDecls hself))
  | dropReplyTaken f => exact .inl (hev (dropReceive_sameDecls f hself))
  | freeFrameReceived f => exact .inl (hev (dropReceive_sameDecls f hself))
  | replyWindowExpiry => exact .inl (hev (windowExpire_sameDecls hself))
  | phaseEvent => exact .inl (hev (phaseEvent_sameDecls hself))
  | intervalExpiry =>
    refine .inl (hev ?_)
    unfold State.intervalExpiryEvent
    split
    · exact phaseEvent_sameDecls hself
    · exact hself
  | commitTaken => exact .inl (hev (finish_sameDecls _ (sameDecls_of_nodes (takeCommit_nodes _) hself)))
  | drainEnd => exact .inl (hev (closeEvent_sameDecls _ (sameDecls_of_nodes (endDrain_nodes _) hself)))

/-! ## Events that cannot take place (assumption log 6) -/

/-- An event that leaves the state as it is does so whatever the level of RESET. -/
theorem unlessReset_self {f : State → State} (h : f s = s) : unlessReset f s = s := by
  unfold unlessReset
  split
  · rfl
  · exact h

theorem unicastEnd_self (h : ∀ u : UniTxn, s.dbc.txn = some (.uni u) → u.cond ≠ .transmitting) :
    s.unicastEnd = s := by
  unfold State.unicastEnd
  split
  next u hu =>
    split
    next hc => exact absurd hc (h u hu)
    next => rfl
  next => rfl
  next => rfl

theorem windowExpire_self (h : ∀ u : UniTxn, s.dbc.txn = some (.uni u) → u.cond ≠ .awaiting) :
    s.windowExpire = s := by
  unfold State.windowExpire
  split
  next u hu =>
    split
    next hc => exact absurd hc (h u hu)
    next => rfl
  next => rfl
  next => rfl

theorem takeTransmitted_self (h : ∀ tag : Byte, s.dbc.txn ≠ some (.broad (.take tag))) : s.takeTransmitted = s := by
  unfold State.takeTransmitted
  split
  next tag ht => exact absurd ht (h tag)
  all_goals rfl

theorem abandonTransmitted_self (h : ∀ tag : Byte, tag ≠ 0 → s.dbc.txn ≠ some (.broad (.abandon tag))) :
    s.abandonTransmitted = s := by
  unfold State.abandonTransmitted
  split
  next tag ht =>
    split
    next => rfl
    next h0 => exact absurd ht (h tag h0)
  all_goals rfl

theorem clearTransmitted_self (h : s.dbc.txn ≠ some (.broad (.abandon 0))) : s.clearTransmitted = s := by
  unfold State.clearTransmitted
  split
  next tag ht =>
    split
    next h0 => exact absurd (h0 ▸ ht) h
    next => rfl
  all_goals rfl

theorem idleWindowReached_self (h : s.dbc.txn.isSome = true) : s.idleWindowReached = s := by
  obtain ⟨t, ht⟩ := Option.isSome_iff_exists.mp h
  simp [State.idleWindowReached, State.busFree, ht]

/-- R26: a frame on the drop bus is not heard while the part transmits. -/
theorem dropReceive_self (f : List Byte) (h : s.dbc.txn.isSome = true)
    (hc : ∀ u : UniTxn, s.dbc.txn = some (.uni u) → u.cond = .transmitting) : s.dropReceive f = s := by
  unfold State.dropReceive
  split
  next hn => simp [hn] at h
  next => rfl
  next u hu => rw [hc u hu]

theorem takeFullReset_self (h : s.tp.closing = false ∨ 2 ≤ s.tp.queue.length) : s.takeFullReset = s := by
  refine if_neg ?_
  simp only [Bool.and_eq_true, decide_eq_true_eq, not_and, Nat.not_le]
  intro hc
  obtain h | h := h
  · simp [hc] at h
  · exact h

/-- R68, R177: a well-checked frame is taken as its kind's request is, whichever row carries it. -/
theorem receiveFrame_of_good {f : List Byte} {kind : Byte} {k : ReqKind} (hk : ReqKind.ofCode? kind = some k)
    (hg : checkGood f = true) (hf : readTrunkFrame f = some (kind, rq)) :
    receiveFrame f false s = takeRequest k rq s := by
  cases ht : s.takesFrames with
  | false => rw [receiveFrame_of_not_taken f false ht, takeRequest_of_not_taken k ht]
  | true => simp [receiveFrame, ht, hg, hf, takeFrame, hk]

theorem takeFrame_of_kind {kind : Byte} {k : ReqKind} (hk : ReqKind.ofCode? kind = some k) :
    takeFrame kind rq s = takeRequest k rq s := by simp [takeFrame, hk]

end Sys2Proof.Machine

open Sys2Proof Sys2Proof.Machine

/-- Settles O3: what each command can do to the declarations; the events that cannot take place one by one; and the
frame of a kind by whichever row carries it. -/
theorem everyCommandAnswersANextState : Obligations.EveryCommandAnswersANextState := by
  refine ⟨⟨fun c s => ⟨effect c s, exec_eq_effect c s, ?_⟩, fun s hp => ⟨s.tick, ?_, tick_sameDecls s⟩⟩,
    ⟨fun s => ?_, fun f s => ⟨rfl, fun ht hc => exec_of_effect (unlessReset_self (dropReceive_self f ht hc))⟩⟩,
    fun k rq s => ?_⟩
  · obtain (h | h | ⟨hk, h⟩ | h) | ⟨hc, h⟩ := effect_declares c s
    · exact .inl h
    · exact .inr (.inl h)
    · exact .inr (.inr (.inl ⟨.inr hk, h⟩))
    · exact .inr (.inr (.inr h))
    · exact .inr (.inr (.inl ⟨.inl ⟨c, hc, rfl⟩, h⟩))
  · rw [step, hp]
  · refine ⟨fun h => exec_of_effect (unlessReset_self (unicastEnd_self h)),
      fun h => exec_of_effect (unlessReset_self (windowExpire_self h)),
      fun h => exec_of_effect (unlessReset_self (takeTransmitted_self h)),
      fun h => exec_of_effect (unlessReset_self (abandonTransmitted_self h)),
      fun h => exec_of_effect (unlessReset_self (clearTransmitted_self h)),
      fun h => exec_of_effect (unlessReset_self (idleWindowReached_self h)),
      fun h => exec_of_effect (unlessReset_self (if_neg h)),
      fun h => exec_of_effect (if_neg (by simp [h])), fun h => exec_of_effect ?_, fun h => exec_of_effect ?_⟩
    · show (if s.resetLow then s else s.frameTransmitted) = s
      simp [State.frameTransmitted, h]
    · show (if s.resetLow then s else s.takeFullReset) = s
      simp [takeFullReset_self h]
  · exact ⟨exec_of_effect (effect_command k rq s), fun b hb => exec_of_effect (takeFrame_of_kind hb),
      fun f b hb hg hf => ⟨exec_of_effect (receiveFrame_of_good hb hg hf), exec_of_effect (receiveFrame_of_good hb hg hf)⟩⟩

end

section
/-! SUPPORT. Requests to nodes at their arrival (R73, R75, R86, R88, R91, R92, R104 to R106, R109, R120, R125): what
each check answers, and what the request does once it has passed them. -/

namespace Sys2Proof.Machine

variable {s : State} {rq : Request} {n : NodeIdx}

/-! ## OVERRANGE and the forward queue -/

theorem itemExceeds_iff (e : NodeEntry) (it : Item) :
    itemExceeds e it = true ↔ ∃ w : Nat, (e.point it.point).width = some w ∧ 2 ^ w ≤ it.value.toNat := by
  unfold itemExceeds exceeds
  split
  next w hw => simp [hw]
  next hw => simp [hw]

theorem forwardFull_iff (s : State) (o : Originator) :
    s.forwardFull o = true ↔
      16 ≤ s.pou.forward.length ∨ 8 ≤ (s.pou.forward.filter fun e => decide (e.originator = o)).length := by
  simp [State.forwardFull, beq_eq_decide]

/-- R98, R99: what a potent refusal records. -/
theorem potentRefusal_eq (o : Originator) (tag : Byte) (k : ReqKind) (n : NodeIdx) (p : PointIdx) (c : Condition) :
    s.potentRefusal o tag k n p c = { s.count .potentRefusals with
      pou := { s.pou with lastRefusal := some (
        { originator := o, tag := tag, kind := k, node := n, point := p, condition := c } : LastRefusal) } } := by
  simp [State.potentRefusal]

/-- R100, R101: what an impotent pass records. -/
theorem impotentPass_eq (c : Condition) :
    s.impotentPass c = { s.count .impotentWrites with
      pou := { s.pou with summary :=
        { overrange := s.pou.summary.overrange || decide (c = .overrange)
          conflict := s.pou.summary.conflict || decide (c = .conflict)
          broken := s.pou.summary.broken || decide (c = .broken) } } } := by
  cases c <;> simp [State.impotentPass, CondSet.add]

section Overrange

variable {k : ReqKind} {items : List Item} {go : List Item → CondSet → State → State}

theorem overrangeCheck_of_fits (h : Fits s n items) : overrangeCheck k rq n items go s = go items {} s := by
  simp only [overrangeCheck, find_of_fits h]

/-- R73: under POTENT the first offending point refuses the request. -/
theorem overrangeCheck_of_potent {it : Item} (h : items.find? (itemExceeds (s.node n)) = some it)
    (hp : s.params.overrangePotency = .potent) :
    overrangeCheck k rq n items go s =
      (s.potentRefusal rq.originator rq.tag k n it.point .overrange).respond (replyTo rq k .overrange) := by
  simp only [overrangeCheck, h, hp]

/-- R95: the items with the low bits of their values. -/
def cutItems (s : State) (n : NodeIdx) (items : List Item) : List Item :=
  items.map fun i => { i with value := BitVec.ofNat 16 (i.value.toNat % 2 ^ ((s.point n i.point).width.getD 16)) }

/-- R73, R95: under IMPOTENT the request goes on with the low bits of its values. -/
theorem overrangeCheck_of_impotent {it : Item} (h : items.find? (itemExceeds (s.node n)) = some it)
    (hp : s.params.overrangePotency = .impotent) (hw : ∀ i ∈ items, (s.point n i.point).width.isSome = true) :
    overrangeCheck k rq n items go s = go (cutItems s n items) { overrange := true } s := by
  have hcut : items.map (truncateItem (s.node n)) = cutItems s n items :=
    List.map_congr_left fun i hi => truncateItem_eq (hw i hi)
  simp only [overrangeCheck, h, hp, hcut]

end Overrange

/-! ## WRITE, MODIFY, READ and RELEASE at their arrival -/

theorem writeRequest_of_forwardable {items : List Item} (ht : s.takesFrames = true)
    (hf : ForNode readItemsBody rq n items) (h : Forwardable s n (items.map Item.point)) :
    writeRequest rq s = finish s (overrangeCheck .write rq n items
      (fun its passed s => s.joinForward .write rq n (.write its) passed) s) :=
  (nodeRequest_of_forNode ht hf).trans (afterArrivalCheck_of_none (arrivalCheck_of_forwardable .write h))

theorem modifyRequest_of_forwardable {p : PointIdx} {o : BitOp} {b : Fin 16} {w : Nat} (ht : s.takesFrames = true)
    (hf : ForNode readModifyBody rq n (p, o, b)) (h : Forwardable s n [p]) (hw : (s.point n p).width = some w) :
    modifyRequest rq s =
      if w ≤ b.val then answer s (replyTo rq .modify .badBit) s
      else finish s (s.joinForward .modify rq n (.modify p o b) {}) := by
  have hc := arrivalCheck_of_forwardable_bit .modify b h hw
  refine (nodeRequest_of_forNode ht hf).trans ?_
  split
  next hb => exact afterArrivalCheck_of_some (hc.trans (if_pos hb))
  next hb => exact afterArrivalCheck_of_none (hc.trans (if_neg hb))

theorem readRequest_of_forwardable {pts : List PointIdx} (ht : s.takesFrames = true)
    (hf : ForNode readPointsBody rq n pts) (h : Forwardable s n pts) :
    readRequest rq s = finish s (s.joinForward .read rq n (.read pts) {}) :=
  (nodeRequest_of_forNode ht hf).trans (afterArrivalCheck_of_none (arrivalCheck_of_forwardable .read h))

theorem releaseRequest_of_forwardable {it : Item} (ht : s.takesFrames = true)
    (hf : ForNode readItemBody rq n it) (h : Forwardable s n [it.point]) :
    releaseRequest rq s = finish s (overrangeCheck .release rq n [it]
      (fun its passed s => releaseArrival rq n (its.headD it) passed s) s) :=
  (nodeRequest_of_forNode ht hf).trans (afterArrivalCheck_of_none (arrivalCheck_of_forwardable .release h))

theorem releaseArrival_of_none {it : Item} {c : CondSet} (h : s.claimOf rq.originator n it.point = none) :
    releaseArrival rq n it c s = s.respond (replyTo rq .release .noClaim) := by simp only [releaseArrival, h]

theorem releaseArrival_of_some {it : Item} {c : CondSet} (h : (s.claimOf rq.originator n it.point).isSome = true) :
    releaseArrival rq n it c s = s.joinForward .release rq n (.release it) c := by
  obtain ⟨r, hr⟩ := Option.isSome_iff_exists.mp h
  simp only [releaseArrival, hr]

/-! ## TEST, CLAIM and UNCLAIM -/

/-- R91: a TEST is refused BAD_BIT or answered from the active value. -/
theorem testRequest_of_declared {p : PointIdx} {b : Fin 16} {w : Nat} (ht : s.takesFrames = true)
    (hf : ForNode readTestBody rq n (p, b)) (ha : (s.node n).state ≠ .absent) (hw : (s.point n p).width = some w) :
    testRequest rq s =
      if w ≤ b.val then answer s (replyTo rq .test .badBit) s
      else answer s (replyTo rq .test .ok (testFlags (s.point n p).active b) (testRespBody (s.point n p).active b)) s := by
  have hc := arrivalCheck_test b ha hw
  refine (nodeRequest_of_forNode ht hf).trans ?_
  split
  next hb => exact afterArrivalCheck_of_some (hc.trans (if_pos hb))
  next hb => exact afterArrivalCheck_of_none (hc.trans (if_neg hb))

theorem claim_on_eq (c : Claim) (n : NodeIdx) (p : PointIdx) : c.on n p = decide (c.node = n ∧ c.point = p) := by
  rw [Bool.eq_iff_iff, claim_on_iff, decide_eq_true_iff]

theorem mapClaim_eq (n : NodeIdx) (p : PointIdx) (f : Claim → Claim) (s : State) :
    s.mapClaim n p f = { s with claims := s.claims.map fun c => if c.node = n ∧ c.point = p then f c else c } := by
  simp only [State.mapClaim, claim_on_iff]

theorem claimOf_eq (o : Originator) (n : NodeIdx) (p : PointIdx) (s : State) :
    s.claimOf o n p = s.claims.find? fun c => decide (c.node = n ∧ c.point = p ∧ c.originator = o) := by
  refine congrArg s.claims.find? (funext fun c => ?_)
  rw [Bool.eq_iff_iff]
  simp [claim_on_iff, and_assoc]

theorem claimedBytes_eq (v : Option Word) : claimedBytes v = v.elim [] wordBytes := by cases v <;> rfl

theorem claimRequest_of_declared {p : PointIdx} (ht : s.takesFrames = true) (hf : ForNode readPointBody rq n p)
    (hn : (s.node n).state.inService = true) (hw : (s.point n p).width.isSome = true) :
    claimRequest rq s = decideClaim rq n p s :=
  (nodeRequest_of_forNode ht hf).trans (afterArrivalCheck_of_none (arrivalCheck_claim hn hw))

theorem unclaimRequest_of_declared {p : PointIdx} (ht : s.takesFrames = true) (hf : ForNode readPointBody rq n p)
    (ha : (s.node n).state ≠ .absent) (hw : (s.point n p).width.isSome = true) :
    unclaimRequest rq s = decideUnclaim rq n p s :=
  (nodeRequest_of_forNode ht hf).trans (afterArrivalCheck_of_none
    (arrivalCheck_local (.inl rfl) ha fun _ hq => List.mem_singleton.mp hq ▸ hw))

theorem claimStateCode_eq (c : ClaimState) : claimStateCode c = if c = .intact then 0x00 else 0x01 := by
  cases c <;> rfl

/-! ## STAGE and COMMIT -/

theorem stageRequest_of_declared {items : List Item} (ht : s.takesFrames = true)
    (hf : ForNode readItemsBody rq n items) (ha : (s.node n).state ≠ .absent)
    (hw : ∀ it ∈ items, (s.point n it.point).width.isSome = true) :
    stageRequest rq s = closeEvent s (overrangeCheck .stage rq n items
      (fun its passed s => decideStage rq n its passed s) s) :=
  (nodeRequest_of_forNode ht hf).trans (afterArrivalCheck_of_none
    (arrivalCheck_local (.inr rfl) ha (List.forall_mem_map.mpr hw)))

section Stages

variable {items : List Item} {passed : CondSet}

theorem decideStage_of_busy
    (h : (s.stage rq.originator).state = .queued ∨ (s.stage rq.originator).state = .committing) :
    decideStage rq n items passed s = s.respond (replyTo rq .stage .stageBusy) := by
  obtain h | h := h <;> simp only [decideStage, h]

variable (h : (s.stage rq.originator).state = .closed ∨ (s.stage rq.originator).state = .opened)
include h

/-- R120: the capacity of the stage comes first. -/
theorem decideStage_of_full
    (hf : 64 < (s.stage rq.originator).entries.length + ((s.stage rq.originator).newItems n items).length) :
    decideStage rq n items passed s =
      s.respond (replyTo rq .stage .stageFull {} [byteOf (s.stage rq.originator).entries.length]) := by
  obtain h | h := h <;> simp only [decideStage, h, hf, if_true]

/-- R120: then the pool's. -/
theorem decideStage_of_exhausted
    (hf : (s.stage rq.originator).entries.length + ((s.stage rq.originator).newItems n items).length ≤ 64)
    (hp : s.poolFree < ((s.stage rq.originator).newItems n items).length) :
    decideStage rq n items passed s =
      ((s.count .stageExhausted).raise .poolShort).respond (replyTo rq .stage .exhausted {} [byteOf s.poolFree]) := by
  obtain h | h := h <;> simp only [decideStage, h, Nat.not_lt.mpr hf, if_false, hp, if_true]

/-- R121: the stage takes every item. -/
theorem decideStage_of_room
    (hf : (s.stage rq.originator).entries.length + ((s.stage rq.originator).newItems n items).length ≤ 64)
    (hp : ((s.stage rq.originator).newItems n items).length ≤ s.poolFree) :
    decideStage rq n items passed s =
      ((s.setStage rq.originator { s.stage rq.originator with
          state := .opened
          entries := (s.stage rq.originator).merge n items
          life := some s.params.stageTimeout }).passOverrange passed).respond
        (replyTo rq .stage .ok { passed := passed }
          [byteOf ((s.stage rq.originator).merge n items).length,
            byteOf (items.length - ((s.stage rq.originator).newItems n items).length)]) := by
  obtain h | h := h <;> simp only [decideStage, h, Nat.not_lt.mpr hf, if_false, Nat.not_lt.mpr hp]

end Stages

/-- R125: a COMMIT by the mode and the state of the stage. -/
theorem commitRequest_of_forPart (ht : s.takesFrames = true) (hf : ForPart readEmptyBody rq ()) :
    commitRequest rq s =
      if s.mode = .run then
        match (s.stage rq.originator).state with
        | .opened => finish s (s.queueStage rq.originator rq.tag).takeCommit
        | .closed => answer s (replyTo rq .commit .empty) s
        | .queued | .committing => answer s (replyTo rq .commit .stageBusy) s
      else answer s (replyTo rq .commit .offline) s :=
  segmentRequest_of_forPart ht hf

end Sys2Proof.Machine

open Sys2Proof Sys2Proof.Machine

/-- Settles O13: by the OVERRANGE check and then by the room in the forward queue. -/
theorem writeAtArrival : Obligations.WriteAtArrival := by
  refine ⟨fun rq n items s ht hf h hfit => ?_, fun rq n items it s ht hf h hit => ?_, itemExceeds_iff,
    fun o tag k n p c s => ⟨potentRefusal_eq o tag k n p c, impotentPass_eq c⟩, forwardFull_iff⟩
  · have hw := (writeRequest_of_forwardable ht hf h).trans (congrArg (finish s) (overrangeCheck_of_fits hfit))
    exact ⟨fun hr => exec_of_effect (hw.trans (congrArg (finish s) (joinForward_of_room hr))),
      fun hr => exec_of_effect (hw.trans (congrArg (finish s) (joinForward_of_full hr)))⟩
  · have hw := writeRequest_of_forwardable ht hf h
    have hi (hp : s.params.overrangePotency = .impotent) := hw.trans (congrArg (finish s)
      (overrangeCheck_of_impotent hit hp (List.forall_mem_map.mp h.2.2)))
    exact ⟨fun hp => exec_of_effect (hw.trans (congrArg (finish s) (overrangeCheck_of_potent hit hp))),
      fun hp hr => exec_of_effect ((hi hp).trans (congrArg (finish s) (joinForward_of_room_overrange hr))),
      fun hp hr => exec_of_effect ((hi hp).trans (congrArg (finish s) (joinForward_of_full hr)))⟩

/-- Settles O14: by the bit, and by the room in the forward queue. -/
theorem modifyAndReadAtArrival : Obligations.ModifyAndReadAtArrival := by
  refine ⟨fun rq n p o b w s ht hf h hw => ?_, fun rq n pts s ht hf h => ?_, forwardFull_iff⟩
  · have hm := modifyRequest_of_forwardable ht hf h hw
    refine ⟨fun hb => exec_of_effect (hm.trans (if_pos hb)), fun hb hr => exec_of_effect (hm.trans ?_),
      fun hb hr => exec_of_effect (hm.trans ?_)⟩
    · rw [if_neg (Nat.not_le.mpr hb), joinForward_of_room hr]
    · rw [if_neg (Nat.not_le.mpr hb), joinForward_of_full hr]
  · have hm := readRequest_of_forwardable ht hf h
    exact ⟨fun hr => exec_of_effect (hm.trans (congrArg (finish s) (joinForward_of_room hr))),
      fun hr => exec_of_effect (hm.trans (congrArg (finish s) (joinForward_of_full hr)))⟩

/-- Settles O15: by the OVERRANGE check, then by the sender's claim, then by the room in the forward queue. -/
theorem releaseAtArrival : Obligations.ReleaseAtArrival := by
  refine ⟨fun rq n it s ht hf h hfit => ?_, fun rq n it w s ht hf h hw hv => ?_, forwardFull_iff⟩
  · have hr := (releaseRequest_of_forwardable ht hf h).trans (congrArg (finish s) (overrangeCheck_of_fits hfit))
    refine ⟨fun hc => exec_of_effect (hr.trans (congrArg (finish s) (releaseArrival_of_none hc))),
      fun hc hroom => exec_of_effect (hr.trans (congrArg (finish s) ?_)),
      fun hc hroom => exec_of_effect (hr.trans (congrArg (finish s) ?_))⟩
    · exact (releaseArrival_of_some hc).trans (joinForward_of_room hroom)
    · exact (releaseArrival_of_some hc).trans (joinForward_of_full hroom)
  · have hr := releaseRequest_of_forwardable ht hf h
    have hit : [it].find? (itemExceeds (s.node n)) = some it :=
      List.find?_cons_of_pos ((itemExceeds_iff _ _).2 ⟨w, hw, hv⟩)
    have hcut : cutItems s n [it] = [{ it with value := BitVec.ofNat 16 (it.value.toNat % 2 ^ w) }] := by
      simp [cutItems, hw]
    refine ⟨fun hp => exec_of_effect (hr.trans (congrArg (finish s) (overrangeCheck_of_potent hit hp))),
      fun hp => ?_⟩
    have hi := hr.trans (congrArg (finish s) (overrangeCheck_of_impotent hit hp (by simp [hw])))
    rw [hcut] at hi
    have harr := releaseArrival_of_some (s := s) (rq := rq) (n := n) (c := { overrange := true })
      (it := { it with value := BitVec.ofNat 16 (it.value.toNat % 2 ^ w) })
    refine ⟨fun hc => exec_of_effect (hi.trans (congrArg (finish s) (releaseArrival_of_none hc))),
      fun hc hroom => exec_of_effect (hi.trans (congrArg (finish s) ?_)),
      fun hc hroom => exec_of_effect (hi.trans (congrArg (finish s) ?_))⟩
    · exact (harr hc).trans (joinForward_of_room_overrange hroom)
    · exact (harr hc).trans (joinForward_of_full hroom)

/-- Settles O16: by the bit, and by whether the active value is set. -/
theorem testAnswersFromTheShadow : Obligations.TestAnswersFromTheShadow := by
  intro rq n p b w s ht hf ha hw
  have hm := testRequest_of_declared ht hf ha hw
  refine ⟨fun hb => exec_of_effect (hm.trans (if_pos hb)), fun hb hv => exec_of_effect (hm.trans ?_),
    fun v hb hv => exec_of_effect (hm.trans ?_)⟩
  · rw [if_neg (Nat.not_le.mpr hb), hv]
    rfl
  · rw [if_neg (Nat.not_le.mpr hb), hv]
    rfl

/-- Settles O17: by the record that the table holds for the point, or for the point and the sender. -/
theorem claimAndUnclaim : Obligations.ClaimAndUnclaim := by
  refine ⟨fun o n p f s => ⟨?_, claimOf_eq o n p s, mapClaim_eq n p f s⟩, fun rq n p s ht hf hn hw => ?_,
    fun rq n p s ht hf ha hw => ?_⟩
  · exact congrArg s.claims.find? (funext fun c => claim_on_eq c n p)
  · have hd := claimRequest_of_declared ht hf hn hw
    simp only [← claimedBytes_eq]
    refine ⟨fun c hc ho => exec_of_effect (hd.trans ?_), fun c hc ho => exec_of_effect (hd.trans ?_),
      fun hc hl => exec_of_effect (hd.trans ?_), fun hc hl => exec_of_effect (hd.trans ?_)⟩
    · simp only [decideClaim, hc, ho, if_false]
    · simp only [decideClaim, hc, ho, if_true, mapClaim_eq]
      rfl
    · simp only [decideClaim, hc, hl, if_true]
    · simp only [decideClaim, hc, Nat.not_le.mpr hl, if_false]
      rfl
  · have hd := unclaimRequest_of_declared ht hf ha hw
    refine ⟨fun hc => exec_of_effect (hd.trans ?_), fun c hc hr => exec_of_effect (hd.trans ?_),
      fun c hc hr => exec_of_effect (hd.trans ?_)⟩
    · simp only [decideUnclaim, hc]
    · simp only [decideUnclaim, hc, hr, if_true]
    · simp only [decideUnclaim, hc, hr, claimStateCode_eq, claimedBytes_eq]
      rfl

/-- Settles O19: by the OVERRANGE check, then by the state of the stage, its room and the pool's. -/
theorem stageIsDecided : Obligations.StageIsDecided := by
  refine ⟨fun o g s => ⟨fun o' => ?_, rfl, rfl⟩, fun rq n items s ht hf ha hw hfit => ?_,
    fun rq n items it s ht hf ha hw hit => ?_⟩
  · rw [stage_setStage]
    exact if_congr eq_comm rfl rfl
  · have hs := (stageRequest_of_declared ht hf ha hw).trans (congrArg (closeEvent s) (overrangeCheck_of_fits hfit))
    exact ⟨fun hg => exec_of_effect (hs.trans (congrArg (closeEvent s) (decideStage_of_busy hg))),
      fun hg hl => exec_of_effect (hs.trans (congrArg (closeEvent s) (decideStage_of_full hg hl))),
      fun hg hl hp => exec_of_effect (hs.trans (congrArg (closeEvent s) (decideStage_of_exhausted hg hl hp))),
      fun hg hl hp => exec_of_effect (hs.trans (congrArg (closeEvent s) (decideStage_of_room hg hl hp)))⟩
  · have hs := stageRequest_of_declared ht hf ha hw
    refine ⟨fun hp => exec_of_effect (hs.trans (congrArg (closeEvent s) (overrangeCheck_of_potent hit hp))),
      fun hp => ?_⟩
    have hi := hs.trans (congrArg (closeEvent s) (overrangeCheck_of_impotent hit hp hw))
    refine ⟨fun hg => exec_of_effect (hi.trans (congrArg (closeEvent s) (decideStage_of_busy hg))),
      fun hg => ⟨fun hl => exec_of_effect (hi.trans (congrArg (closeEvent s) (decideStage_of_full hg hl))),
        fun hl hp => exec_of_effect (hi.trans (congrArg (closeEvent s) (decideStage_of_exhausted hg hl hp))),
        fun hl hp => exec_of_effect (hi.trans (congrArg (closeEvent s) ((decideStage_of_room hg hl hp).trans ?_)))⟩⟩
    rw [List.length_map]
    rfl

/-- Settles O20: by the mode and the state of the sender's stage. -/
theorem commitIsDecided : Obligations.CommitIsDecided := by
  intro rq s ht hf
  have hc := commitRequest_of_forPart ht hf
  refine ⟨fun hm => exec_of_effect (hc.trans (if_neg hm)), fun hm hg => exec_of_effect (hc.trans ?_),
    fun hm hg => exec_of_effect (hc.trans ?_), fun hm hg => exec_of_effect (hc.trans ?_)⟩
  · simp only [hm, if_true, hg]
  · obtain hg | hg := hg <;> simp only [hm, if_true, hg]
  · simp only [hm, if_true, hg]
    rfl

end

section
/-! SUPPORT. Value-setting events (R6, R107), the taking of a commit (R129), and the node management requests (R10 to
R12, R15, R17), by the state that decides each. -/

namespace Sys2Proof.Machine

variable {s t : State} {rq : Request}

/-! ## Value-setting events -/

/-- R144: a record offered changes the exception unit and the counters only. -/
theorem offer_eq (b : ExcBody) (s : State) :
    s.offer b = { s with exq := (s.offer b).exq, counters := (s.offer b).counters } := by
  by_cases h : s.exq.queue.length < 32
  · rw [offer_of_room b h]
  · rw [offer_of_full b (Nat.not_lt.mp h), State.raise, count_eq]

/-- R144: what a record does is decided by the queue, the flags, the counters and the interval count. -/
theorem offer_out (b : ExcBody) (hq : s.exq = t.exq) (hr : s.rs = t.rs) (hc : s.counters = t.counters) :
    (s.offer b).exq = (t.offer b).exq ∧ (s.offer b).counters = (t.offer b).counters := by
  by_cases h : s.exq.queue.length < 32
  · rw [offer_of_room b h, offer_of_room b (hq ▸ h)]
    exact ⟨by rw [hq, hr], hc⟩
  · have hs := offer_of_full b (Nat.not_lt.mp h)
    have ht := offer_of_full (s := t) b (hq ▸ Nat.not_lt.mp h)
    rw [hs, ht]
    simp only [State.raise, count_exq, count_counters, hq, hc, and_self]

section Breaks

variable {n : NodeIdx} {p : PointIdx} {cause : BreakCause}

theorem breakClaim_of_intact {c : Claim} (h : s.claimOn n p = some c) (hc : c.state = .intact) :
    s.breakClaim n p cause = (s.mapClaim n p fun c => { c with state := .broken }).offer
      (.claimBroken n p c.originator cause) := by simp only [State.breakClaim, h, hc, if_true]

theorem breakClaim_of_broken (h : s.claimOn n p = none ∨ ∃ c : Claim, s.claimOn n p = some c ∧ c.state = .broken) :
    s.breakClaim n p cause = s := by
  obtain h | ⟨c, h, hc⟩ := h
  · simp only [State.breakClaim, h]
  · simp only [State.breakClaim, h, hc, reduceCtorEq, if_false]

/-- R107: a claim broken changes the claims, the exception unit and the counters only. -/
theorem breakClaim_eq (n : NodeIdx) (p : PointIdx) (cause : BreakCause) (s : State) :
    s.breakClaim n p cause = { s with
      claims := (s.breakClaim n p cause).claims
      exq := (s.breakClaim n p cause).exq
      counters := (s.breakClaim n p cause).counters } := by
  unfold State.breakClaim
  split
  · split
    · rw [offer_eq]
      rfl
    · rfl
  · rfl

end Breaks

theorem setActive_node (n m : NodeIdx) (p : PointIdx) (v : Word) (c : BreakCause) (s : State) :
    (s.setActive n p v c).node m = { s.node m with points := ((s.setActive n p v c).node m).points } := by
  have hn : (s.setActive n p v c).node m = (s.setPoint n p { s.point n p with active := some v }).node m :=
    congrArg (·[m]) (breakClaim_nodes ..)
  rw [hn, State.setPoint, node_setNode]
  split
  next h =>
    subst h
    rfl
  next => rfl

/-! ## The taking of a commit -/

theorem takeCommit_of_queued {o : Originator} {rest : List Originator} (hc : s.ce.commit = none)
    (hw : s.ce.clearOwed = false) (hq : s.ce.queue = o :: rest) :
    s.takeCommit =
      { s.setStage o { s.stage o with state := .committing, tag := some s.ce.nextTag } with
        ce := { s.ce with
          queue := rest
          commit := some
            { originator := o, phase := .loading, order := nodeOrder (s.stage o).entries, position := 0,
              loaded := [] }
          nextTag := tagAfter s.ce.nextTag } } := by
  simp only [State.takeCommit, hc, hw, hq]
  rfl

theorem takeCommit_self (h : s.ce.commit.isSome = true ∨ s.ce.clearOwed = true ∨ s.ce.queue = []) :
    s.takeCommit = s := by
  unfold State.takeCommit
  split
  next hi =>
    split
    next o rest hq =>
      simp only [Bool.and_eq_true, Bool.not_eq_true', Option.isNone_iff_eq_none] at hi
      simp [hi.1, hi.2, hq] at h
    next => rfl
  next => rfl

/-! ## CONFIGURE NODE and REMOVE NODE -/

/-- The declarations of a CONFIGURE NODE put into an entry one after another. -/
def declareAll (ds : List Decl) (e : NodeEntry) : NodeEntry :=
  ds.foldl (fun e d => e.setPoint d.point { width := some d.width, held := d.held }) e

theorem configuredEntry_eq (ds : List Decl) : configuredEntry ds = declareAll ds { state := .parked } := rfl

/-- Declarations touch nothing of an entry but its points. -/
theorem declareAll_eq (ds : List Decl) : ∀ e : NodeEntry,
    declareAll ds e = { e with points := (declareAll ds e).points } := by
  induction ds with
  | nil => exact fun _ => rfl
  | cons d ds ih => exact fun e => ih (e.setPoint d.point _)

theorem declareAll_point_of_not_mem {p : PointIdx} (ds : List Decl) : ∀ e : NodeEntry, (∀ d ∈ ds, d.point ≠ p) →
    (declareAll ds e).point p = e.point p := by
  induction ds with
  | nil => exact fun _ _ => rfl
  | cons d ds ih =>
    intro e h
    have hd := h d List.mem_cons_self
    exact (ih (e.setPoint d.point _) fun d' hd' => h d' (List.mem_cons_of_mem _ hd')).trans
      ((point_setPoint ..).trans (if_neg hd))

theorem declareAll_point_of_mem {d : Decl} (ds : List Decl) : ∀ e : NodeEntry, (ds.map Decl.point).Nodup → d ∈ ds →
    (declareAll ds e).point d.point = { width := some d.width, held := d.held } := by
  induction ds with
  | nil => exact fun _ _ h => absurd h List.not_mem_nil
  | cons d' ds ih =>
    intro e hnd hmem
    obtain ⟨hnot, hnd⟩ := List.nodup_cons.mp hnd
    obtain rfl | hmem := List.mem_cons.mp hmem
    · have hne : ∀ d' ∈ ds, d'.point ≠ d.point := fun d' hd' heq => hnot (List.mem_map.mpr ⟨d', hd', heq⟩)
      exact (declareAll_point_of_not_mem ds (e.setPoint d.point _) hne).trans
        ((point_setPoint ..).trans (if_pos rfl))
    · exact ih (e.setPoint d'.point _) hnd hmem

/-- A body that is read is the body of the frame. -/
theorem Managed.body {α : Type} {rd : List Byte → Option α} {a : α} (h : Managed rd rq a s) :
    ∃ b, rd b = some a := by
  obtain ⟨-, ⟨-, hb⟩, -⟩ := h
  obtain ⟨b, -, hb⟩ := Option.bind_eq_some_iff.mp hb
  exact ⟨b, hb⟩

/-- R10: the request is decided by whether the node is ABSENT. -/
theorem configureNodeRequest_of_managed {n : NodeIdx} {ds : List Decl} (h : Managed readConfigureBody rq (n, ds) s) :
    configureNodeRequest rq s =
      if (s.node n).state = .absent then
        answer s (nodeReply rq .configureNode .ok n (s.setNode n (configuredEntry ds))) (s.setNode n (configuredEntry ds))
      else answerNode rq .configureNode .nodeState n s :=
  managementRequest_of_managed h

/-- R12: the request is decided by the node's state and then by whether it is in use. -/
theorem removeNodeRequest_of_managed {n : NodeIdx} (h : Managed readNodeBody rq n s) :
    removeNodeRequest rq s =
      if (s.node n).state = .parked then
        if s.inUse n then answerNode rq .removeNode .inUse n s
        else answer s (nodeReply rq .removeNode .ok n (s.setNode n {})) (s.setNode n {})
      else answerNode rq .removeNode .nodeState n s :=
  managementRequest_of_managed h

theorem busUses_iff (n : NodeIdx) (s : State) :
    s.busUses n = true ↔ ∃ t : UniTxn, s.dbc.txn = some (.uni t) ∧ t.node = n := by
  unfold State.busUses
  split
  next t ht => simp [ht]
  next hb => simp [hb]
  next hb => simp [hb]

theorem commitUses_iff (n : NodeIdx) (s : State) :
    s.commitUses n = true ↔ ∃ c : Commit, s.ce.commit = some c ∧ n ∈ c.order := by
  unfold State.commitUses
  split
  next c hc => simp [hc]
  next hc => simp [hc]

theorem inUse_iff (n : NodeIdx) (s : State) :
    s.inUse n = true ↔
      (∃ c ∈ s.claims, c.node = n) ∨ (∃ o : Originator, ∃ e ∈ (s.stage o).entries, e.node = n) ∨
        (∃ e ∈ s.pou.forward, e.node = n) ∨ (∃ t : UniTxn, s.dbc.txn = some (.uni t) ∧ t.node = n) ∨
        ∃ c : Commit, s.ce.commit = some c ∧ n ∈ c.order := by
  rw [← busUses_iff, ← commitUses_iff]
  simp [State.inUse, or_assoc]

/-! ## PARK NODE and UNPARK NODE -/

section Park

variable {n : NodeIdx} (h : Managed readNodeBody rq n s)
include h

theorem parkNodeRequest_of_absent (ha : (s.node n).state = .absent) :
    parkNodeRequest rq s = answerNode rq .parkNode .nodeState n s :=
  (managementRequest_of_managed h).trans (by simp only [ha])

theorem parkNodeRequest_of_parked (hp : (s.node n).state = .parked) :
    parkNodeRequest rq s = answerNode rq .parkNode .ok n s :=
  (managementRequest_of_managed h).trans (by simp only [hp])

theorem parkNodeRequest_of_inService (hi : (s.node n).state.inService = true) :
    parkNodeRequest rq s = finish s ((s.setNode n (s.node n).park).respond
      (nodeReply rq .parkNode .ok n (s.setNode n (s.node n).park))) := by
  refine (managementRequest_of_managed h).trans ?_
  obtain hs | hs | hs := (inService_iff _).1 hi <;> simp only [hs]

theorem unparkNodeRequest_of_parked (hp : (s.node n).state = .parked) :
    unparkNodeRequest rq s = finish s ((s.setNode n ((s.node n).unpark s.params.wakeDebits)).respond
      (nodeReply rq .unparkNode .ok n (s.setNode n ((s.node n).unpark s.params.wakeDebits)))) :=
  (managementRequest_of_managed h).trans (by simp only [hp])

theorem unparkNodeRequest_of_not_parked (hp : (s.node n).state ≠ .parked) :
    unparkNodeRequest rq s = answerNode rq .unparkNode .nodeState n s := by
  refine (managementRequest_of_managed h).trans ?_
  split
  next hs => exact absurd hs hp
  all_goals rfl

end Park

/-- R167: the body of the answer is the state of the node in the entry put there. -/
theorem nodeReply_setNode (k : ReqKind) (st : Status) (n : NodeIdx) (e : NodeEntry) (s : State) :
    nodeReply rq k st n (s.setNode n e) = replyTo rq k st {} [e.state.code] := by
  rw [nodeReply, node_setNode_self]

end Sys2Proof.Machine

open Sys2Proof Sys2Proof.Machine

/-- Settles O18: by the claim on the point and its state. -/
theorem valueSettingEventBreaksTheClaim : Obligations.ValueSettingEventBreaksTheClaim := by
  intro n p v cause s
  refine ⟨by simp [setActive_point], fun m q h => ?_, fun c hc hi => ?_, fun h => ?_,
    fun m => setActive_node n m p v cause s, ?_⟩
  · rw [setActive_point]
    exact if_neg fun hm => h ⟨hm.1.symm, hm.2.symm⟩
  · have hb : s.setActive n p v cause = _ :=
      breakClaim_of_intact (s := s.setPoint n p { s.point n p with active := some v }) hc hi
    have hout := offer_out (t := s) (.claimBroken n p c.originator cause)
      (s := (s.setPoint n p { s.point n p with active := some v }).mapClaim n p fun c => { c with state := .broken })
      rfl rfl rfl
    rw [hb]
    refine ⟨?_, fun hq => ?_, hout.1, hout.2⟩
    · rw [offer_claims, mapClaim_eq]
      rfl
    · rw [hout.1, offer_of_room _ hq]
  · have hb : s.setActive n p v cause = s.setPoint n p { s.point n p with active := some v } :=
      breakClaim_of_broken (s := s.setPoint n p { s.point n p with active := some v }) h
    rw [hb]
    exact ⟨rfl, rfl, rfl⟩
  · dsimp only
    have hn : (s.setActive n p v cause).nodes = (s.setPoint n p { s.point n p with active := some v }).nodes :=
      breakClaim_nodes ..
    rw [hn]
    exact breakClaim_eq n p cause (s.setPoint n p { s.point n p with active := some v })

/-- Settles O21: by whether the Commit Engine is idle and a stage queued. -/
theorem commitIsTaken : Obligations.CommitIsTaken := by
  refine fun s => ⟨fun hr => exec_of_effect (unlessReset_of_not_low _ hr), fun o rest hc hw hq => ?_, takeCommit_self⟩
  rw [takeCommit_of_queued hc hw hq, nodeOrder_eq]
  rfl

/-- Settles O23: by the node's state and its use; the configured entry by its declarations. -/
theorem nodesConfiguredAndRemoved : Obligations.NodesConfiguredAndRemoved := by
  refine ⟨⟨fun n e s => ⟨fun m => ?_, rfl⟩, inService_iff, fun n p s => rfl⟩, fun rq n ds s h => ?_,
    fun rq n s h => ?_, fun n s => inUse_iff n s⟩
  · rw [node_setNode]
    exact if_congr eq_comm rfl rfl
  · have hc := configureNodeRequest_of_managed h
    refine ⟨fun ha => exec_of_effect (hc.trans (if_neg ha)), fun ha => ⟨configuredEntry ds, ?_, ?_⟩⟩
    · have hst : (configuredEntry ds).state = .parked :=
        congrArg NodeEntry.state (declareAll_eq ds { state := .parked })
      refine exec_of_effect (hc.trans ((if_pos ha).trans ?_))
      rw [nodeReply_setNode, hst]
      rfl
    · obtain ⟨b, hb⟩ := h.body
      obtain ⟨-, -, hnd, -⟩ := (readConfigureBody_iff n ds b).1 hb
      have he := declareAll_eq ds { state := .parked }
      refine ⟨congrArg NodeEntry.state he, congrArg NodeEntry.cls he, congrArg NodeEntry.debt he,
        congrArg NodeEntry.alternation he, congrArg NodeEntry.silence he, congrArg NodeEntry.probe he,
        fun d hd => declareAll_point_of_mem ds _ hnd hd, fun p hp => ?_⟩
      exact (declareAll_point_of_not_mem ds _ hp).trans (by simp [NodeEntry.point])
  · have hr := removeNodeRequest_of_managed h
    refine ⟨fun hp => exec_of_effect (hr.trans (if_neg hp)), fun hp hu => exec_of_effect (hr.trans ?_),
      fun hp hu => exec_of_effect (hr.trans ?_)⟩
    · rw [if_pos hp, if_pos hu, answerNode, nodeReply, hp]
      rfl
    · rw [if_pos hp, if_neg (by simp [hu]), nodeReply_setNode]
      rfl

/-- Settles O24: by the state of the node. -/
theorem parkAndUnpark : Obligations.ParkAndUnpark := by
  intro rq n s h
  refine ⟨fun ha => exec_of_effect ((parkNodeRequest_of_absent h ha).trans ?_),
    fun hp => exec_of_effect ((parkNodeRequest_of_parked h hp).trans ?_),
    fun hi => exec_of_effect ((parkNodeRequest_of_inService h hi).trans ?_),
    fun hp => exec_of_effect ((unparkNodeRequest_of_parked h hp).trans ?_),
    fun hp => exec_of_effect (unparkNodeRequest_of_not_parked h hp)⟩
  · rw [answerNode, nodeReply, ha]
    rfl
  · rw [answerNode, nodeReply, hp]
    rfl
  · rw [nodeReply_setNode]
    rfl
  · rw [nodeReply_setNode]
    rfl

end

section
/-! SUPPORT. The management requests that read, set parameters and set the mode (R145 to R148, R151, R154, R168 to R174,
R84), and the drain's end (R158). -/

namespace Sys2Proof.Machine

variable {s : State} {rq : Request}

/-! ## The bodies of the readings (Tables 11-4 and 11-5) -/

/-- The point records of an entry, in ascending order of index. -/
theorem points_toList (e : NodeEntry) : e.points.toList = (List.finRange 16).map e.point := by
  refine List.ext_getElem (by simp) fun i h1 h2 => ?_
  simp [NodeEntry.point]

/-- Bytes 4..7 of Table 11-5, place by place. -/
theorem commitQueueBytes_eq (q : List Originator) :
    commitQueueBytes q = [0, 1, 2, 3].map fun i : Nat =>
      match q[i]? with
      | some o => byteOf o.val
      | none => 0xFF := by
  rcases q with _ | ⟨a, _ | ⟨b, _ | ⟨c, _ | ⟨d, q⟩⟩⟩⟩ <;> rfl

/-- Byte 21 of Table 11-5, bit by bit. -/
theorem byteOf_bits (c : CondSet) :
    byteOf c.bits = (if c.overrange then 0x01 else 0x00) ||| (if c.conflict then 0x02 else 0x00) |||
      (if c.broken then 0x04 else 0x00) := by
  obtain ⟨o, c, b⟩ := c
  cases o <;> cases c <;> cases b <;> rfl

theorem length_commitQueueBytes (q : List Originator) : (commitQueueBytes q).length = 4 := by
  rw [commitQueueBytes_eq]
  rfl

theorem length_lastRefusalBytes (r : Option LastRefusal) : (lastRefusalBytes r).length = 7 := by cases r <;> rfl

/-- Bytes 22..28 of Table 11-5. -/
theorem lastRefusalBytes_eq (l : Option LastRefusal) :
    lastRefusalBytes l =
      match l with
      | none => [0x00, 0x00, 0x00, 0x00, 0x00, 0x00, 0x00]
      | some r =>
        [0x01, byteOf r.originator.val, r.tag, r.kind.code, byteOf (r.node.val + 1), byteOf r.point.val,
          match r.condition with
          | .overrange => 0x08
          | .conflict => 0x0A
          | .broken => 0x0E] := by
  cases l with
  | none => rfl
  | some r => cases hc : r.condition <;> simp only [lastRefusalBytes, hc] <;> rfl

theorem boolByte_busy (s : State) : boolByte (!s.busFree) = if s.dbc.txn.isSome then 0x01 else 0x00 := by
  rw [State.busFree, Option.not_isNone]
  rfl

theorem length_readStatusBody (s : State) : (readStatusBody s).length = 32 := by
  simp [readStatusBody, length_commitQueueBytes, length_lastRefusalBytes, wordBytes, List.finRange_succ]

/-! ## The reading requests, once they are managed -/

theorem readStatusRequest_of_managed {clear : Bool} (h : Managed readOptionBody rq clear s) :
    readStatusRequest rq s = answer s (replyTo rq .readStatus .ok {} (readStatusBody s))
      (if clear then { s with pou := { s.pou with summary := {} } } else s) := managementRequest_of_managed h

theorem readExceptionsRequest_of_managed {k : Nat} (h : Managed readNumberBody rq k s) :
    readExceptionsRequest rq s = answer s
      (replyTo rq .readExceptions .ok {} (readExceptionsBody (s.exq.queue.drop k).length (s.exq.queue.take k)))
      { s with exq := { s.exq with queue := s.exq.queue.drop k } } := managementRequest_of_managed h

theorem readNoticesRequest_of_managed (h : Managed readEmptyBody rq () s) :
    readNoticesRequest rq s = answer s (replyTo rq .readNotices .ok {} (readNoticesBody s))
      { s with exq := { s.exq with flags := 0 } } := managementRequest_of_managed h

theorem setNoticeMaskRequest_of_managed {m : BitVec 5} (h : Managed readMaskBody rq m s) :
    setNoticeMaskRequest rq s = answer s (replyTo rq .setNoticeMask .ok)
      { s with exq := { s.exq with mask := m } } := managementRequest_of_managed h

theorem readCountersRequest_of_managed {clear : Bool} (h : Managed readOptionBody rq clear s) :
    readCountersRequest rq s = answer s (replyTo rq .readCounters .ok {} (readCountersBody s))
      (if clear then { s with counters := {} } else s) := managementRequest_of_managed h

/-! ## SET PARAMETERS (R168 to R170) -/

theorem setParametersRequest_of_managed {items : List (ParamId × Byte)} (h : Managed readParamsBody rq items s) :
    setParametersRequest rq s =
      match paramRefusal s items with
      | some (st, i) => answer s (replyTo rq .setParameters st {} [i.code]) s
      | none =>
        if paramDecision s (s.setParams items) then
          (answer s (replyTo rq .setParameters .ok) (s.setParams items)).arbitrate
        else answer s (replyTo rq .setParameters .ok) (s.setParams items) :=
  managementRequest_of_managed h

section Refusals

variable {items : List (ParamId × Byte)}

theorem paramRefusal_of_out_of_range {i : ParamId × Byte} (h : items.find? (fun i => !i.1.inRange i.2) = some i) :
    paramRefusal s items = some (.badParam, i.1) := by simp only [paramRefusal, h]

variable (hr : ∀ i ∈ items, i.1.inRange i.2 = true)
include hr

/-- R169: with every item in its range, the watermarks are compared and then the halted-only items looked for. -/
theorem paramRefusal_of_in_range :
    paramRefusal s items =
      if (s.params.setAll items).panicWatermark ≤ (s.params.setAll items).highWatermark then
        some (.badParam, .panicWatermark)
      else if s.mode = .halted then none
      else (items.find? fun i => i.1.haltedOnly).map fun i => (.mode, i.1) := by
  have hf : items.find? (fun i => !i.1.inRange i.2) = none := List.find?_eq_none.mpr fun i hi => by simp [hr i hi]
  simp only [paramRefusal, hf]

theorem paramRefusal_of_watermarks
    (hw : (s.params.setAll items).panicWatermark ≤ (s.params.setAll items).highWatermark) :
    paramRefusal s items = some (.badParam, .panicWatermark) := (paramRefusal_of_in_range hr).trans (if_pos hw)

theorem paramRefusal_of_halted_only {i : ParamId × Byte}
    (hw : (s.params.setAll items).highWatermark < (s.params.setAll items).panicWatermark) (hm : s.mode ≠ .halted)
    (hi : items.find? (fun i => i.1.haltedOnly) = some i) : paramRefusal s items = some (.mode, i.1) := by
  rw [paramRefusal_of_in_range hr, if_neg (Nat.not_le.mpr hw), if_neg hm, hi]
  rfl

theorem paramRefusal_none
    (hw : (s.params.setAll items).highWatermark < (s.params.setAll items).panicWatermark)
    (hm : s.mode = .halted ∨ ∀ i ∈ items, i.1.haltedOnly = false) : paramRefusal s items = none := by
  rw [paramRefusal_of_in_range hr, if_neg (Nat.not_le.mpr hw)]
  split
  next => rfl
  next hn =>
    have hf : items.find? (fun i => i.1.haltedOnly) = none := List.find?_eq_none.mpr fun i hi => by
      simp [hm.resolve_left hn i hi]
    rw [hf]
    rfl

end Refusals

theorem setParams_eq (items : List (ParamId × Byte)) (s : State) :
    s.setParams items = { s with
      params := s.params.setAll items
      dbc := if (s.params.setAll items).arbMode = s.params.arbMode then s.dbc
        else { s.dbc with rotation := [.fwd, .cmt, .rnw], lead := [.fwd, .rnw] } } := rfl

theorem paramDecision_iff (s t : State) : paramDecision s t = true ↔
    s.dbc.txn = none ∧ (t.params.arbMode ≠ s.params.arbMode ∨ t.params.commitPace ≠ s.params.commitPace ∨
      (s.idleElapsed = false ∧ t.idleElapsed = true)) := by
  simp [paramDecision, State.busFree, or_assoc, eq_comm (a := s.params.arbMode), eq_comm (a := s.params.commitPace)]

/-! ### What is written reads back (R170) -/

theorem get_set_self (p : Params) (i : ParamId) {v : Byte} (h : i.inRange v = true) : (p.set i v).get i = v := by
  have hflag (h : v.toNat ≤ 1) : v = 0x00 ∨ v = 0x01 := by
    have : v.toNat = 0 ∨ v.toNat = 1 := by omega
    exact this.imp BitVec.eq_of_toNat_eq BitVec.eq_of_toNat_eq
  cases i with
  | renewalInterval | claimTimeout | stageTimeout | highWatermark | panicWatermark | wakeDebits | replyWindowCode
  | idleWindow => exact byteOf_of_toNat v
  | stagger | commitPace | overrangePotency | conflictPotency | brokenPotency =>
    obtain rfl | rfl := hflag (of_decide_eq_true h) <;> rfl
  | arbMode =>
    have h : v.toNat ≤ 2 := of_decide_eq_true h
    have hv : v = 0x00 ∨ v = 0x01 ∨ v = 0x02 := by
      have : v.toNat = 0 ∨ v.toNat = 1 ∨ v.toNat = 2 := by omega
      exact this.imp BitVec.eq_of_toNat_eq (Or.imp BitVec.eq_of_toNat_eq BitVec.eq_of_toNat_eq)
    obtain rfl | rfl | rfl := hv <;> rfl
  | noticeOriginator =>
    have h : v.toNat ≤ 3 := of_decide_eq_true h
    have hv : (Fin.ofNat 4 v.toNat).val = v.toNat := Nat.mod_eq_of_lt (by omega)
    exact (congrArg byteOf hv).trans (byteOf_of_toNat v)
  | managerSet =>
    have h : v.toNat < 16 := of_decide_eq_true h
    refine BitVec.eq_of_toNat_eq ?_
    simp only [Params.get, Params.set, BitVec.toNat_setWidth]
    omega

theorem get_set_of_ne (p : Params) {i j : ParamId} (v : Byte) (h : i ≠ j) : (p.set i v).get j = p.get j := by
  cases i <;> cases j <;> first | rfl | exact absurd rfl h

theorem get_setAll_of_not_mem {j : ParamId} (items : List (ParamId × Byte)) : ∀ p : Params,
    (∀ i ∈ items, i.1 ≠ j) → (p.setAll items).get j = p.get j := by
  induction items with
  | nil => exact fun _ _ => rfl
  | cons i items ih =>
    intro p h
    exact (ih (p.set i.1 i.2) fun k hk => h k (List.mem_cons_of_mem _ hk)).trans
      (get_set_of_ne p i.2 (h i List.mem_cons_self))

theorem get_setAll_of_mem {i : ParamId × Byte} (items : List (ParamId × Byte)) : ∀ p : Params,
    (items.map Prod.fst).Nodup → (∀ i ∈ items, i.1.inRange i.2 = true) → i ∈ items →
      (p.setAll items).get i.1 = i.2 := by
  induction items with
  | nil => exact fun _ _ _ h => absurd h List.not_mem_nil
  | cons k items ih =>
    intro p hnd hr hmem
    obtain ⟨hnot, hnd⟩ := List.nodup_cons.mp hnd
    obtain rfl | hmem := List.mem_cons.mp hmem
    · have hne : ∀ k ∈ items, k.1 ≠ i.1 := fun k hk heq => hnot (List.mem_map.mpr ⟨k, hk, heq⟩)
      exact (get_setAll_of_not_mem items (p.set i.1 i.2) hne).trans (get_set_self p i.1 (hr i List.mem_cons_self))
    · exact ih (p.set k.1 k.2) hnd (fun j hj => hr j (List.mem_cons_of_mem _ hj)) hmem

theorem inRange_iff (i : ParamId) (v : Byte) : i.inRange v = true ↔
    match i with
    | .renewalInterval | .claimTimeout | .stageTimeout => 1 ≤ v.toNat ∧ v.toNat ≤ 255
    | .stagger | .commitPace | .overrangePotency | .conflictPotency | .brokenPotency => v = 0x00 ∨ v = 0x01
    | .highWatermark => 1 ≤ v.toNat ∧ v.toNat ≤ 7
    | .panicWatermark => 2 ≤ v.toNat ∧ v.toNat ≤ 8
    | .wakeDebits => 1 ≤ v.toNat ∧ v.toNat ≤ 3
    | .replyWindowCode => v.toNat ≤ 7
    | .idleWindow => v.toNat ≤ 255
    | .arbMode => v = 0x00 ∨ v = 0x01 ∨ v = 0x02
    | .noticeOriginator => v.toNat ≤ 3
    | .managerSet => v.toNat ≤ 15 := by
  have hbyte : v.toNat ≤ 255 := Nat.le_of_lt_succ v.isLt
  have heq (k : Nat) (hk : k < 256) : v = BitVec.ofNat 8 k ↔ v.toNat = k := byte_eq_iff hk
  cases i with
  | stagger | commitPace | overrangePotency | conflictPotency | brokenPotency =>
    refine decide_eq_true_iff.trans ?_
    show v.toNat ≤ 1 ↔ v = BitVec.ofNat 8 0 ∨ v = BitVec.ofNat 8 1
    rw [heq 0 (by decide), heq 1 (by decide)]
    omega
  | arbMode =>
    refine decide_eq_true_iff.trans ?_
    show v.toNat ≤ 2 ↔ v = BitVec.ofNat 8 0 ∨ v = BitVec.ofNat 8 1 ∨ v = BitVec.ofNat 8 2
    rw [heq 0 (by decide), heq 1 (by decide), heq 2 (by decide)]
    omega
  | idleWindow => exact iff_of_true rfl hbyte
  | renewalInterval | claimTimeout | stageTimeout | highWatermark | panicWatermark | wakeDebits | replyWindowCode
  | noticeOriginator | managerSet =>
    refine decide_eq_true_iff.trans ?_
    dsimp only
    omega

/-! ## SET MODE (R154, R155) -/

theorem setModeRequest_of_managed {m : ModeRequest} (h : Managed readModeBody rq m s) :
    setModeRequest rq s = decideMode rq m s := managementRequest_of_managed h

theorem wakeEntry_eq (wake : Nat) (e : NodeEntry) :
    wakeEntry wake e = if e.state = .live ∨ e.state = .lapsed then { e with debt := max e.debt wake } else e := by
  cases h : e.state <;> simp [wakeEntry, h]

theorem runEntry_eq (s : State) : s.runEntry = { s with
    mode := .run
    ce := { s.ce with clearOwed := true }
    nodes := s.nodes.map fun e =>
      if e.state = .live ∨ e.state = .lapsed then { e with debt := max e.debt s.params.wakeDebits } else e } := by
  have h : s.wakeAll.nodes = s.nodes.map fun e =>
      if e.state = .live ∨ e.state = .lapsed then { e with debt := max e.debt s.params.wakeDebits } else e :=
    congrArg s.nodes.map (funext fun e => wakeEntry_eq s.params.wakeDebits e)
  rw [← h]
  rfl

/-! ## The drain's end, and FULL RESET (R84, R158) -/

theorem closeEvent_self (s : State) : closeEvent s s = s := by simp [closeEvent, rings]

theorem drainEndEvent_of_drained (h : s.drained = true) :
    s.drainEndEvent = closeEvent s ({ s with mode := .halted }.raise .halted) := by
  rw [State.drainEndEvent, State.endDrain, if_pos h]

theorem drainEndEvent_of_not_drained (h : s.drained = false) : s.drainEndEvent = s := by
  rw [State.drainEndEvent, State.endDrain, h, if_neg Bool.false_ne_true, closeEvent_self]

/-- R84: FULL RESET by the room in the transmit queue. -/
theorem fullResetRequest_of_managed (h : Managed readEmptyBody rq () s) :
    fullResetRequest rq s =
      if s.tp.queue.length < 32 then
        { s.respond (replyTo rq .fullReset .ok) with
          tp := { (s.respond (replyTo rq .fullReset .ok)).tp with closing := true } }
      else s.fullReset := managementRequest_of_managed h

end Sys2Proof.Machine

open Sys2Proof Sys2Proof.Machine

/-- Settles O25: the bodies of the two tables. -/
theorem statusReadings : Obligations.StatusReadings := by
  refine ⟨fun rq n s => ⟨fun h => exec_of_effect (managementRequest_of_managed h),
    fun h => exec_of_effect ((managementRequest_of_managed h).trans ?_)⟩, fun rq clear s h => ?_⟩
  · rw [nodeStatusBody, points_toList, List.flatMap_map]
    rfl
  · intro stage queued body
    have hbody : readStatusBody s = body := by
      have hstages : ((List.finRange 4).flatMap fun o => [(s.stage o).state.code, byteOf (s.stage o).entries.length]) =
          stage 0 ++ stage 1 ++ stage 2 ++ stage 3 := rfl
      rw [readStatusBody, commitQueueBytes_eq, byteOf_bits, hstages, lastRefusalBytes_eq, boolByte_busy]
      simp only [body, List.append_assoc, List.cons_append, List.nil_append, List.map_cons, List.map_nil]
      rfl
    rw [← hbody]
    exact ⟨length_readStatusBody s, exec_of_effect (readStatusRequest_of_managed h)⟩

/-- Settles O26: each reading and what it clears. -/
theorem eventReadings : Obligations.EventReadings := by
  refine ⟨fun rq k s h => exec_of_effect ((readExceptionsRequest_of_managed h).trans ?_),
    fun rq s => ⟨fun h => exec_of_effect (readNoticesRequest_of_managed h),
      fun m h => exec_of_effect (setNoticeMaskRequest_of_managed h),
      fun clear h => exec_of_effect ((readCountersRequest_of_managed h).trans ?_)⟩⟩
  · rw [readExceptionsBody, List.length_drop, List.length_take]
    rfl
  · cases clear <;> rfl

/-- Settles O27: the ranges; the three refusals in their order; what is written reads back. -/
theorem setParametersIsDecided : Obligations.SetParametersIsDecided := by
  refine ⟨⟨inRange_iff, fun i => ?_⟩, fun rq items s h => ?_, fun rq items s h hr hw hm => ?_,
    fun items p hnd hr => ⟨fun i hi => get_setAll_of_mem items p hnd hr hi,
      fun j hj => get_setAll_of_not_mem items p hj⟩⟩
  · cases i <;> decide
  · have hs := setParametersRequest_of_managed h
    refine ⟨fun i hi => exec_of_effect (hs.trans ?_), fun hr hw => exec_of_effect (hs.trans ?_),
      fun i hr hw hm hi => exec_of_effect (hs.trans ?_)⟩
    · rw [paramRefusal_of_out_of_range hi]
    · rw [paramRefusal_of_watermarks hr hw]
      rfl
    · rw [paramRefusal_of_halted_only hr hw hm hi]
  · refine exec_of_effect ((setParametersRequest_of_managed h).trans ?_)
    rw [paramRefusal_none hr hw hm]
    exact if_congr (paramDecision_iff s (s.setParams items)) rfl rfl

/-- Settles O28: by the requested mode and the present one. -/
theorem setModeIsDecided : Obligations.SetModeIsDecided := by
  refine fun rq s => ⟨fun h => ?_, fun h => ?_⟩
  · have hs := setModeRequest_of_managed h
    refine ⟨fun hm => exec_of_effect (hs.trans ?_), fun hm => exec_of_effect (hs.trans ?_),
      fun hm => exec_of_effect (hs.trans ?_)⟩
    · simp only [decideMode, hm, modeReply]
      rfl
    · simp only [decideMode, hm, modeReply]
      rfl
    · rw [← runEntry_eq]
      simp only [decideMode, hm, modeReply]
      rfl
  · have hs := setModeRequest_of_managed h
    refine ⟨fun hm => exec_of_effect (hs.trans ?_), fun hm => exec_of_effect (hs.trans ?_),
      fun hm => exec_of_effect (hs.trans ?_)⟩
    · simp only [decideMode, hm, modeReply]
      rfl
    · simp only [decideMode, hm, modeReply]
      rfl
    · simp only [decideMode, hm, modeReply]

/-- Settles O31: by whether the drain can end. -/
theorem drainEnds : Obligations.DrainEnds := by
  refine fun s hr => ⟨fun hm hc hw ht => ?_, fun h => ?_⟩
  · exact exec_of_effect ((unlessReset_of_not_low _ hr).trans
      (drainEndEvent_of_drained ((drained_iff s).2 ⟨hm, hc, hw, ht⟩)))
  · refine exec_of_effect ((unlessReset_of_not_low _ hr).trans
      (drainEndEvent_of_not_drained (Bool.eq_false_iff.mpr fun hd => ?_)))
    obtain ⟨hm, hc, hw, ht⟩ := (drained_iff s).1 hd
    simp [hm, hc, hw, ht] at h

/-- Settles O32: by the room in the transmit queue; a frame is taken only while the TP is not CLOSING. -/
theorem fullResetRequestClosesTheTrunkPort : Obligations.FullResetRequestClosesTheTrunkPort := by
  refine fun rq s h => ⟨fun hq => exec_of_effect ((fullResetRequest_of_managed h).trans ?_),
    fun hq => exec_of_effect ((fullResetRequest_of_managed h).trans (if_neg (Nat.not_lt.mpr hq)))⟩
  rw [if_pos hq, respond_of_room _ ((takesFrames_iff s).1 h.1).2 hq, enqueue_eq]

end

section
/-! SUPPORT. The arbiter (R33 to R40): who wins, what a decision does, and why a run of decisions ends; and the grant of
a RENEW (R52, R53). -/

namespace Sys2Proof.Machine

variable {s : State}

/-! ## The winner (R36, R37, R39) -/

theorem winner_of_busy_or_halted (h : s.dbc.txn.isSome = true ∨ s.mode = .halted) : s.winner = none := by
  have hn : (s.busFree && s.mode != .halted) = false := by
    obtain h | h := h
    · obtain ⟨t, ht⟩ := Option.isSome_iff_exists.mp h
      simp [State.busFree, ht]
    · simp [h]
  simp [State.winner, hn]

section Free

variable (ht : s.dbc.txn = none) (hm : s.mode ≠ .halted)
include ht hm

/-- R36: with the bus FREE outside HALTED, the three steps in their order. -/
theorem winner_of_free :
    s.winner =
      if s.rnwAt .panic then some (.rnw, .panic)
      else
        match s.choose with
        | some r => some (r, .shared)
        | none => if s.rnwAt .low && s.idleElapsed then some (.rnw, .low) else none := by
  have hf : (s.busFree && s.mode != .halted) = true := by simp [State.busFree, ht, hm]
  exact if_pos hf

end Free

theorem idleElapsed_of_free (ht : s.dbc.txn = none) : s.idleElapsed = decide (s.params.idleWindow ≤ s.dbc.idleTimer) := by
  simp [State.idleElapsed, State.busFree, ht]

theorem rnwAt_iff (s : State) (l : Level) : s.rnwAt l = true ↔ ∃ o : Offer, s.candidate = some o ∧ o.level = l := by
  unfold State.rnwAt
  split
  next o ho => simp [ho]
  next ho => simp [ho]

theorem eligible_cmt_iff (s : State) : s.eligible .cmt = true ↔ s.cmtWork.isSome = true ∧
    ¬(s.params.commitPace = .yield ∧ s.dbc.yieldMarker = true ∧ (s.pou.forward ≠ [] ∨ s.rnwAt .high = true)) := by
  have hheld : s.cmtHeld = true ↔
      s.params.commitPace = .yield ∧ s.dbc.yieldMarker = true ∧ (s.pou.forward ≠ [] ∨ s.rnwAt .high = true) := by
    rw [← fwdWaits_iff]
    simp [State.cmtHeld, and_assoc]
  rw [← hheld]
  simp [State.eligible, State.cmtWaits]

theorem choose_of_lead (h : s.params.arbMode = .lead) : s.choose = (.cmt :: s.dbc.lead).find? s.eligible := by
  simp only [State.choose, h, List.find?_cons]
  cases s.eligible .cmt <;> rfl

/-- R37: the arbitration mode chooses an eligible requester. -/
theorem eligible_of_choose {r : Requester} (h : s.choose = some r) : s.eligible r = true := by
  cases hm : s.params.arbMode with
  | fixed | rotate =>
    simp only [State.choose, hm] at h
    exact List.find?_some h
  | lead => exact List.find?_some (choose_of_lead hm ▸ h)

/-- A requester has something to be granted. -/
def State.waits (s : State) : Requester → Prop
  | .fwd => s.pou.forward ≠ []
  | .cmt => s.cmtWork ≠ none
  | .rnw => s.candidate ≠ none

theorem waits_of_rnwAt {l : Level} (h : s.rnwAt l = true) : s.waits .rnw := by
  obtain ⟨o, ho, -⟩ := (rnwAt_iff s l).1 h
  simp [State.waits, ho]

theorem waits_of_eligible {r : Requester} (h : s.eligible r = true) : s.waits r := by
  cases r with
  | fwd => exact (fwdWaits_iff s).1 h
  | cmt => exact Option.isSome_iff_ne_none.mp ((eligible_cmt_iff s).1 h).1
  | rnw => exact waits_of_rnwAt h

/-- R36: the winner waits. -/
theorem winner_waits {r : Requester} {st : GrantStep} (h : s.winner = some (r, st)) : s.waits r := by
  unfold State.winner at h
  split at h
  · split at h
    next hp =>
      obtain ⟨⟩ := h
      exact waits_of_rnwAt hp
    next =>
      split at h
      next r' hr =>
        obtain ⟨⟩ := h
        exact waits_of_eligible (eligible_of_choose hr)
      next =>
        split at h
        next hl =>
          obtain ⟨⟩ := h
          exact waits_of_rnwAt (Bool.and_eq_true_iff.mp hl).1
        next => contradiction
  · contradiction

/-! ## The grant and the outcome of a RENEW (R52, R53) -/

theorem grantRnw_of_candidate {o : Offer} (h : s.candidate = some o) :
    grantRnw s = (State.startUni o.node (.renew (renewItems (s.node o.node)))
      { s with rs := { s.rs with lastRenewed := o.node } }, true) := by
  unfold grantRnw
  split
  next hn => simp [hn] at h
  next o' ho =>
    obtain rfl : o' = o := Option.some.inj (ho.symm.trans h)
    rfl

/-! ## Runs of decisions (R40) -/

theorem decisions_of_no_winner (k : Nat) (h : s.winner = none) : s.decisions k = s := by
  cases k with
  | zero => rfl
  | succ k => simp only [State.decisions, h]

theorem decisions_of_winner {r : Requester} {st : GrantStep} (k : Nat) (h : s.winner = some (r, st)) :
    s.decisions (k + 1) = if (s.decideGrant r st).2 = true then (s.decideGrant r st).1
      else (s.decideGrant r st).1.decisions k := by simp only [State.decisions, h]

/-- The unused grants that can still follow: one for each forward-queue entry, one for each queued commit, and one
for the commit in flight while it is LOADING. -/
def State.unusedLeft (s : State) : Nat :=
  s.pou.forward.length + s.ce.queue.length +
    match s.ce.commit with
    | some c => if c.phase = .loading then 1 else 0
    | none => 0

theorem unusedLeft_of_same {t : State} (hf : t.pou.forward = s.pou.forward) (hc : t.ce = s.ce) :
    t.unusedLeft = s.unusedLeft := by rw [State.unusedLeft, hf, hc]; rfl

theorem unusedLeft_lt_bound (s : State) : s.unusedLeft < s.decisionBound := by
  have h : s.unusedLeft ≤ s.pou.forward.length + s.ce.queue.length + 1 := by
    unfold State.unusedLeft
    split
    · split <;> omega
    · omega
  unfold State.decisionBound
  omega

/-- A commit that gives way to the next in the queue takes that one off. -/
theorem unusedLeft_takeCommit (hc : s.ce.commit = none) : s.takeCommit.unusedLeft ≤ s.unusedLeft := by
  by_cases h : s.ce.clearOwed = true ∨ s.ce.queue = []
  · rw [takeCommit_self (.inr h)]
  · rw [not_or] at h
    obtain ⟨hw, hq⟩ := h
    obtain ⟨o, rest, hq⟩ := List.exists_cons_of_ne_nil hq
    rw [takeCommit_of_queued hc (Bool.eq_false_iff.mpr hw) hq]
    simp [State.unusedLeft, hc, hq]

/-- R132: a failed commit leaves no LOAD, or gives way to the next in the queue. -/
theorem unusedLeft_failCommit {c : Commit} (n : NodeIdx) (cause : FailCause) (hc : s.ce.commit = some c)
    (hp : c.phase = .loading) : (s.failCommit c n cause).unusedLeft < s.unusedLeft := by
  have hs : s.unusedLeft = s.pou.forward.length + s.ce.queue.length + 1 := by simp [State.unusedLeft, hc, hp]
  unfold State.failCommit
  split
  · refine Nat.lt_of_le_of_lt (unusedLeft_takeCommit rfl) ?_
    simp [State.unusedLeft, State.closeStage] at hs ⊢
    omega
  · simp [State.unusedLeft] at hs ⊢
    omega

theorem commit_of_load_phase {c : Commit} {n : NodeIdx} {tag : Byte} (h : s.cmtWork = some (.load c n tag)) :
    s.ce.commit = some c ∧ c.phase = .loading := by
  unfold State.cmtWork at h
  split at h
  · contradiction
  · split at h
    · exact absurd h (by simp)
    · split at h
      · contradiction
      next c' hc' =>
        split at h
        · contradiction
        · split at h
          next hp =>
            obtain ⟨m, -, hm⟩ := Option.map_eq_some_iff.mp h
            obtain ⟨⟩ := hm
            exact ⟨hc', hp⟩
          · exact absurd h (by simp)
          · exact absurd h (by simp)

/-- R40: a grant to a requester that waits starts a transaction, or is one of the unused grants that could follow. -/
theorem grant_used_or_less {r : Requester} (h : s.waits r) :
    ((grant r s).2 = true ∧ (grant r s).1.dbc.txn.isSome = true) ∨
      ((grant r s).2 = false ∧ (grant r s).1.unusedLeft < s.unusedLeft) := by
  cases r with
  | fwd =>
    obtain ⟨e, rest, hq⟩ := List.exists_cons_of_ne_nil h
    have hg : grant .fwd s = grantEntry e { s with pou := { s.pou with forward := rest } } := by
      simp only [grant, grantFwd, hq]
    rw [hg]
    obtain ⟨hu, ht⟩ | ⟨hu, hf, hc⟩ := grantEntry_granted { s with pou := { s.pou with forward := rest } } e
    · exact .inl ⟨hu, ht⟩
    · refine .inr ⟨hu, ?_⟩
      rw [unusedLeft_of_same hf hc]
      simp only [State.unusedLeft, hq, List.length_cons]
      omega
  | cmt =>
    simp only [grant, grantCmt]
    split
    next hw => exact absurd hw h
    iterate 3 exact .inl ⟨rfl, rfl⟩
    next c n tag hw =>
      obtain ⟨hc, hp⟩ := commit_of_load_phase hw
      split
      iterate 2 exact .inl ⟨rfl, rfl⟩
      all_goals exact .inr ⟨rfl, unusedLeft_failCommit n .nodeState hc hp⟩
  | rnw =>
    obtain ⟨o, ho⟩ := Option.ne_none_iff_exists'.mp h
    have hg : grant .rnw s = _ := grantRnw_of_candidate ho
    rw [hg]
    exact .inl ⟨rfl, rfl⟩

/-- R40: so does a decision that finds a winner. -/
theorem decideGrant_used_or_less {r : Requester} {st : GrantStep} (h : s.winner = some (r, st)) :
    ((s.decideGrant r st).2 = true ∧ (s.decideGrant r st).1.dbc.txn.isSome = true) ∨
      ((s.decideGrant r st).2 = false ∧ (s.decideGrant r st).1.unusedLeft < s.unusedLeft) := by
  have hw : (s.bookGrant r st).waits r := by
    have hs := winner_waits h
    cases r <;> exact hs
  refine (grant_used_or_less hw).imp (fun hg => ⟨hg.1, ?_⟩) fun hg => ⟨hg.1, ?_⟩
  · simpa [State.decideGrant] using hg.2
  · refine (unusedLeft_of_same ?_ ?_).trans_lt hg.2 <;> simp [State.decideGrant]

/-- R40: a run that may take more decisions than there are unused grants left ends without a winner. -/
theorem decisions_end (k : Nat) : ∀ s : State, s.unusedLeft < k → (s.decisions k).winner = none := by
  induction k with
  | zero => exact fun s h => absurd h (Nat.not_lt_zero _)
  | succ k ih =>
    intro s h
    cases hw : s.winner with
    | none => rwa [decisions_of_no_winner _ hw]
    | some x =>
      obtain ⟨r, st⟩ := x
      rw [decisions_of_winner k hw]
      obtain ⟨hu, ht⟩ | ⟨hu, hl⟩ := decideGrant_used_or_less hw
      · rw [if_pos hu]
        exact winner_of_busy_or_halted (.inl ht)
      · rw [if_neg (by simp [hu])]
        exact ih _ (by omega)

/-- R158: the drain's end, condition by condition. -/
theorem endDrain_eq (s : State) : s.endDrain =
    if s.mode = .draining ∧ s.ce.commit = none ∧ s.ce.clearOwed = false ∧ s.dbc.txn = none
    then { s with mode := .halted, exq := { s.exq with flags := s.exq.flags ||| 16#5 } } else s :=
  if_congr (drained_iff s) rfl rfl

/-- R53: a node that is no longer in service gets nothing. -/
theorem renewOutcome_of_out_of_service {n : NodeIdx} (h : (s.node n).state.inService = false) (o : DropOutcome) :
    s.renewOutcome n o = s := by simp [State.renewOutcome, h]

end Sys2Proof.Machine

open Sys2Proof Sys2Proof.Machine

/-- Settles O33: the steps of R36 in their order, and the requesters that are eligible. -/
theorem arbiterWinner : Obligations.ArbiterWinner := by
  refine fun s => ⟨winner_of_busy_or_halted, fun ht hm hp => ?_, fun ht hm hp => ⟨fun r hr => ?_, fun hc hl hi => ?_,
      fun hc hn => ?_⟩, fun h => ?_, fun h => ?_, choose_of_lead, fwdWaits_iff s, eligible_cmt_iff s, Iff.rfl, rnwAt_iff s⟩
  · rw [winner_of_free ht hm, if_pos hp]
  · simp [winner_of_free ht hm, hp, hr]
  · simp [winner_of_free ht hm, hp, hc, hl, idleElapsed_of_free ht, hi]
  · have hl : (s.rnwAt .low && s.idleElapsed) = false := by
      obtain hn | hn := hn
      · simp [hn]
      · simp [idleElapsed_of_free ht, hn]
    simp [winner_of_free ht hm, hp, hc, hl]
  · simp only [State.choose, h]
  · simp only [State.choose, h]

/-- Settles O34: this is how a grant is booked. -/
theorem grantMovesTheListInUse : Obligations.GrantMovesTheListInUse := fun _ _ _ => rfl

/-- Settles O35: a decision by its winner and by whether the grant is used. -/
theorem arbiterDecisionIsTaken : Obligations.ArbiterDecisionIsTaken := by
  refine ⟨⟨fun s hr => ?_, fun k s => ⟨rfl, decisions_of_no_winner _, fun r st h => decisions_of_winner k h⟩⟩,
    fun st s => ?_, fun s hr ht => ?_⟩
  · have ha : exec .arbiterDecision s = .next s.arbitrate := exec_of_effect (unlessReset_of_not_low _ hr)
    refine ⟨ha, fun hw => ha.trans (congrArg _ (decisions_of_no_winner _ hw)),
      fun r st hw hu => ha.trans (congrArg _ ?_), fun r st hw hu => ha.trans (congrArg _ ?_)⟩
    · exact (decisions_of_winner _ hw).trans (if_pos hu)
    · exact (decisions_of_winner _ hw).trans (if_neg (by simp [hu]))
  · simp only [← endDrain_eq]
    exact ⟨rfl, rfl, rfl⟩
  · have hf : s.busFree = true := by simp [State.busFree, ht]
    have hi : s.idleWindowReached = _ := if_pos hf
    refine (exec_of_effect (c := .idleWindowElapsed) ((unlessReset_of_not_low _ hr).trans hi)).trans ?_
    exact (exec_of_effect (c := .arbiterDecision) (unlessReset_of_not_low (s := { s with
      dbc := { s.dbc with idleTimer := max s.dbc.idleTimer s.params.idleWindow } }) State.arbitrate hr)).symm

/-- Settles O36: each decision with an unused grant leaves fewer unused grants to follow, and the bound is above them
all; a used grant occupies the bus. -/
theorem decisionsRunToTheirEnd : Obligations.DecisionsRunToTheirEnd :=
  fun s => decisions_end s.decisionBound s (unusedLeft_lt_bound s)

/-- Settles O37: by the outcome, for a node in service. -/
theorem renewGrantAndOutcome : Obligations.RenewGrantAndOutcome := by
  refine ⟨fun o s h => grantRnw_of_candidate h, fun n c vs s => ⟨fun h => ?_, ?_, renewOutcome_of_out_of_service⟩⟩
  · simp [State.renewOutcome, h]
  · simp [State.renewOutcome]

end

section
/-! SUPPORT. The grants of the forward queue by the kind of the head (R78, R79, R96, R97, R110), what the Commit Engine
presents and what its LOADs bring (R127, R130 to R132), and the reply window (R27, R30). -/

namespace Sys2Proof.Machine

variable {s : State} {e : FwdEntry}

/-! ## The head of the forward queue -/

theorem grantFwd_of_head {rest : List FwdEntry} (h : s.pou.forward = e :: rest) :
    grantFwd s = grantEntry e { s with pou := { s.pou with forward := rest } } := by simp only [grantFwd, h]

theorem grantEntry_of_out_of_service (h : (s.node e.node).state.inService = false) :
    grantEntry e s = (s.respond (e.reply .nodeState), false) := by
  simp only [grantEntry, h]
  rfl

/-! ## The CONFLICT check (R78, R96) -/

section Conflict

variable {pts : List PointIdx} {p : PointIdx}

theorem conflictCheck_of_none (h : pts.find? (fun p => (s.point e.node p).pending.isSome) = none) :
    conflictCheck e pts s = { state := s, entry := e, refusal := none } := by simp only [conflictCheck, h]

theorem conflictCheck_of_potent (h : pts.find? (fun p => (s.point e.node p).pending.isSome) = some p)
    (hp : s.params.conflictPotency = .potent) : conflictCheck e pts s = refusePotent e p .conflict s := by
  simp only [conflictCheck, h, hp]

theorem conflictCheck_of_impotent (h : pts.find? (fun p => (s.point e.node p).pending.isSome) = some p)
    (hp : s.params.conflictPotency = .impotent) : conflictCheck e pts s = passImpotent e .conflict s := by
  simp only [conflictCheck, h, hp]

theorem find_pending_of_none (h : (s.point e.node p).pending = none) :
    [p].find? (fun p => (s.point e.node p).pending.isSome) = none := by simp [h]

theorem find_pending_of_some (h : (s.point e.node p).pending.isSome = true) :
    [p].find? (fun p => (s.point e.node p).pending.isSome) = some p := List.find?_cons_of_pos h

end Conflict

/-! ## The kinds of the head, at a node in service -/

section InService

variable (hi : (s.node e.node).state.inService = true)
include hi

theorem grantEntry_of_read {pts : List PointIdx} (ho : e.op = .read pts) :
    grantEntry e s = startInHand e none (.read pts) s := by simp only [grantEntry, hi, ho, if_true]

theorem grantEntry_of_write {items : List Item} (ho : e.op = .write items) :
    grantEntry e s = afterConflict (conflictCheck e (items.map Item.point) s) none (.write items) := by
  simp only [grantEntry, hi, ho, if_true]

theorem grantEntry_of_modify_unset {p : PointIdx} {o : BitOp} {b : Fin 16} (ho : e.op = .modify p o b)
    (hv : (s.point e.node p).active = none) : grantEntry e s = refuseGrant e .unset s := by
  simp only [grantEntry, hi, ho, if_true, hv]

theorem grantEntry_of_modify {p : PointIdx} {o : BitOp} {b : Fin 16} {v : Word} (ho : e.op = .modify p o b)
    (hv : (s.point e.node p).active = some v) :
    grantEntry e s = afterConflict (conflictCheck e [p] s) (some (o.apply b v, o.apply b v != v))
      (.write [{ point := p, value := o.apply b v }]) := by
  simp only [grantEntry, hi, ho, if_true, hv]

theorem grantEntry_of_release_unclaimed {it : Item} (ho : e.op = .release it)
    (hc : s.claimOf e.originator e.node it.point = none) : grantEntry e s = refuseGrant e .noClaim s := by
  simp only [grantEntry, hi, ho, if_true, hc]

/-- R110: with a claim held, the BROKEN check comes before the CONFLICT check. -/
theorem grantEntry_of_release_claimed {it : Item} {c : Claim} (ho : e.op = .release it)
    (hc : s.claimOf e.originator e.node it.point = some c) :
    grantEntry e s =
      let g := brokenCheck e it.point c s
      match g.refusal with
      | some st => refuseGrant g.entry st g.state
      | none => afterReleaseConflict (conflictCheck g.entry [it.point] g.state) it := by
  simp only [grantEntry, hi, ho, if_true, hc] <;> rfl

/-- R110: an INTACT claim goes on to the CONFLICT check. -/
theorem grantEntry_of_release_intact {it : Item} {c : Claim} (ho : e.op = .release it)
    (hc : s.claimOf e.originator e.node it.point = some c) (hs : c.state = .intact) :
    grantEntry e s = afterReleaseConflict (conflictCheck e [it.point] s) it := by
  have hb : brokenCheck e it.point c s = { state := s, entry := e, refusal := none } := by
    simp only [brokenCheck, hs]
  rw [grantEntry_of_release_claimed hi ho hc, hb]

/-- R97: so does a BROKEN one under IMPOTENT, after the pass is made. -/
theorem grantEntry_of_release_impotent {it : Item} {c : Claim} (ho : e.op = .release it)
    (hc : s.claimOf e.originator e.node it.point = some c) (hs : c.state = .broken)
    (hp : s.params.brokenPotency = .impotent) :
    grantEntry e s = afterReleaseConflict (conflictCheck { e with passed := { e.passed with broken := true } }
      [it.point] (s.impotentPass .broken)) it := by
  have hb : brokenCheck e it.point c s = passImpotent e .broken s := by simp only [brokenCheck, hs, hp]
  rw [grantEntry_of_release_claimed hi ho hc, hb]
  rfl

/-- R97: under POTENT a BROKEN claim is removed and the RELEASE refused. -/
theorem grantEntry_of_release_potent {it : Item} {c : Claim} (ho : e.op = .release it)
    (hc : s.claimOf e.originator e.node it.point = some c) (hs : c.state = .broken)
    (hp : s.params.brokenPotency = .potent) :
    grantEntry e s = refuseGrant e .broken
      ((s.dropClaim e.node it.point).potentRefusal e.originator e.tag e.op.kind e.node it.point .broken) := by
  have hb : brokenCheck e it.point c s = refusePotent e it.point .broken (s.dropClaim e.node it.point) := by
    simp only [brokenCheck, hs, hp]
  rw [grantEntry_of_release_claimed hi ho hc, hb]
  rfl

end InService

/-- R96, R110: a RELEASE after its BROKEN check, by the pending value of its point. -/
theorem afterReleaseConflict_eq (it : Item) :
    afterReleaseConflict (conflictCheck e [it.point] s) it =
      if (s.point e.node it.point).pending = none then
        startInHand e none (.write [it]) (s.mapClaim e.node it.point fun c => { c with releasing := true })
      else
        match s.params.conflictPotency with
        | .potent => refuseGrant e .conflict
          (s.potentRefusal e.originator e.tag e.op.kind e.node it.point .conflict)
        | .impotent => startInHand { e with passed := { e.passed with conflict := true } } none (.write [it])
          ((s.impotentPass .conflict).mapClaim e.node it.point fun c => { c with releasing := true }) := by
  split
  next h =>
    rw [conflictCheck_of_none (find_pending_of_none h)]
    rfl
  next h =>
    have hf := find_pending_of_some (Option.isSome_iff_ne_none.mpr h)
    split
    next hp =>
      rw [conflictCheck_of_potent hf hp]
      rfl
    next hp =>
      rw [conflictCheck_of_impotent hf hp]
      rfl

/-! ## What the Commit Engine presents (R127) -/

theorem ceBusy_iff (s : State) : s.ceBusy = true ↔ (∃ f : BroadFrame, s.dbc.txn = some (.broad f)) ∨
    ∃ (u : UniTxn) (tag : Byte) (items : List Item), s.dbc.txn = some (.uni u) ∧ u.frame = .load tag items := by
  unfold State.ceBusy
  split
  next t ht =>
    split
    next tag items hf => simp [ht, hf]
    all_goals
      next hf => simp [ht, hf]
  next f hf => simp [hf]
  next hn => simp [hn]

theorem cmtWork_of_busy (h : s.ceBusy = true) : s.cmtWork = none := if_pos h

section Idle

variable (hb : s.ceBusy = false)
include hb

theorem cmtWork_of_clear (hw : s.ce.clearOwed = true) : s.cmtWork = some .clear := by simp [State.cmtWork, hb, hw]

variable (hw : s.ce.clearOwed = false)
include hw

theorem cmtWork_of_no_commit (hc : s.ce.commit = none) : s.cmtWork = none := by simp [State.cmtWork, hb, hw, hc]

variable {c : Commit} {tag : Byte} (hc : s.ce.commit = some c) (ht : (s.stage c.originator).tag = some tag)
include hc ht

/-- R127: what is presented for the commit in flight, by its phase. -/
theorem cmtWork_of_commit :
    s.cmtWork =
      match c.phase with
      | .loading => (c.order[c.position]?).map fun n => .load c n tag
      | .taking => some (.take tag)
      | .abandoning _ _ => some (.abandon tag) := by
  have ht : s.commitTag c = some tag := ht
  simp only [State.cmtWork, hb, hw, hc, ht]
  rfl

end Idle

theorem grantCmt_of_clear (h : s.cmtWork = some .clear) : grantCmt s = (s.startBroad (.abandon 0), true) := by
  simp only [grantCmt, h]

theorem grantCmt_of_take {tag : Byte} (h : s.cmtWork = some (.take tag)) :
    grantCmt s = (s.startBroad (.take tag), true) := by simp only [grantCmt, h]

theorem grantCmt_of_abandon {tag : Byte} (h : s.cmtWork = some (.abandon tag)) :
    grantCmt s = (s.startBroad (.abandon tag), true) := by simp only [grantCmt, h]

section Load

variable {c : Commit} {n : NodeIdx} {tag : Byte} (h : s.cmtWork = some (.load c n tag))
include h

theorem grantCmt_of_load (hn : (s.node n).state = .live ∨ (s.node n).state = .lapsed) :
    grantCmt s = (s.startUni n (.load tag (loadItems (s.stage c.originator).entries n)), true) := by
  obtain hn | hn := hn <;> simp only [grantCmt, h, hn]

theorem grantCmt_of_load_failed (hl : (s.node n).state ≠ .live) (hp : (s.node n).state ≠ .lapsed) :
    grantCmt s = (s.failCommit c n .nodeState, false) := by
  simp only [grantCmt, h]
  split
  next hs => exact absurd hs hl
  next hs => exact absurd hs hp
  all_goals rfl

end Load

theorem loadItems_eq (es : List StageEntry) (n : NodeIdx) :
    loadItems es n = (es.filter fun e => decide (e.node = n)).map fun e => { point := e.point, value := e.value } := by
  simp only [loadItems, beq_eq_decide]

/-! ## The outcome of a LOAD (R131, R132) -/

theorem failCommit_of_loaded {c : Commit} (n : NodeIdx) (cause : FailCause) (h : c.loaded ≠ []) :
    s.failCommit c n cause =
      { s with ce := { s.ce with commit := some { c with phase := .abandoning n cause } } } :=
  if_neg (by simp [h])

theorem failCommit_of_unloaded {c : Commit} (n : NodeIdx) (cause : FailCause) (h : c.loaded = []) :
    s.failCommit c n cause = s.endFailed c n cause := if_pos (by simp [h])

theorem loadOutcome_of_no_commit (n : NodeIdx) (tag : Byte) (items : List Item) (o : DropOutcome)
    (h : s.ce.commit = none) : s.loadOutcome n tag items o = s := by simp only [State.loadOutcome, h]

theorem loadOutcome_of_commit {c : Commit} {tag : Byte} (n : NodeIdx) (items : List Item) (o : DropOutcome)
    (hc : s.ce.commit = some c) (hp : c.phase = .loading) (ht : (s.stage c.originator).tag = some tag) :
    s.loadOutcome n tag items o =
      match o with
      | .accepted _ _ => s.loadAccepted c n items
      | .refused _ => s.failCommit c n .nodeRefused
      | .noReply => s.failCommit c n .noReply := by
  have h : c.phase = .loading ∧ s.commitTag c = some tag := ⟨hp, ht⟩
  simp only [State.loadOutcome, hc, if_pos h] <;> rfl

/-- R131: an ACCEPTED LOAD leaves the rest of the Commit Engine as it was. -/
theorem loadAccepted_eq (c : Commit) (n : NodeIdx) (items : List Item) :
    s.loadAccepted c n items = { s.setPendings n items with ce := { s.ce with commit := some (c.advance n) } } := by
  have h : (s.setPendings n items).ce = s.ce := setPendings_ce n items
  exact congrArg (fun x : CommitEngine =>
    { s.setPendings n items with ce := { x with commit := some (c.advance n) } }) h

/-! ## The reply window (R27, R30) -/

theorem unicastEnd_of_transmitting {u : UniTxn} (ht : s.dbc.txn = some (.uni u)) (hc : u.cond = .transmitting) :
    s.unicastEnd = { s with dbc := { s.dbc with
      txn := some (.uni { u with cond := .awaiting, windowLeft := windowTicks u.window }) } } := by
  simp only [State.unicastEnd, ht, hc]

theorem windowExpire_of_awaiting {u : UniTxn} (ht : s.dbc.txn = some (.uni u)) (hc : u.cond = .awaiting) :
    s.windowExpire = finish s ((s.count .dropNoReply).handOver u .noReply) := by
  simp only [State.windowExpire, ht, hc]

/-- R27: the windows of the eight codes. -/
theorem windowTicks_eq : ∀ k ≤ 7, windowTicks k = [10, 20, 40, 80, 160, 320, 640, 1280].getD k 0 := by decide

end Sys2Proof.Machine

open Sys2Proof Sys2Proof.Machine

/-- Settles O38: by the node's state and the CONFLICT check. -/
theorem writeGrant : Obligations.WriteGrant := by
  refine ⟨fun n f g s => ⟨rfl, rfl, rfl⟩, fun e items rest s hq ho => ?_⟩
  intro t hit started
  have hg : grantFwd s = grantEntry e t := grantFwd_of_head hq
  have hk : e.op.kind = .write := by rw [ho]; rfl
  have hreply (st : Status) : e.reply st =
      { originator := e.originator, tag := e.tag, kind := 0x01, status := st, flags := { passed := e.passed } } := by
    rw [FwdEntry.reply, hk]
    rfl
  refine ⟨fun hi => hg.trans ((grantEntry_of_out_of_service (s := t) hi).trans (by rw [hreply])), fun hi hf => ?_,
    fun p hi hf hp => ?_, fun p hi hf hp => ?_⟩
  · refine hg.trans ((grantEntry_of_write (s := t) hi ho).trans ?_)
    rw [conflictCheck_of_none (s := t) hf]
    rfl
  · refine hg.trans ((grantEntry_of_write (s := t) hi ho).trans ?_)
    rw [conflictCheck_of_potent (s := t) hf hp, refusePotent, hk, ← hreply]
    rfl
  · refine hg.trans ((grantEntry_of_write (s := t) hi ho).trans ?_)
    rw [conflictCheck_of_impotent (s := t) hf hp]
    rfl

/-- Settles O39: by the node's state and the kind of the head; a MODIFY by the active and the pending value. -/
theorem modifyAndReadGrant : Obligations.ModifyAndReadGrant := by
  intro e rest s hq t no started
  have hg : grantFwd s = grantEntry e t := grantFwd_of_head hq
  refine ⟨fun hi => hg.trans (grantEntry_of_out_of_service (s := t) hi), fun hi => ⟨fun pts ho => ?_,
    fun p o b ho => ⟨fun hv => ?_, fun v hv => ?_⟩⟩⟩
  · exact hg.trans (grantEntry_of_read (s := t) hi ho)
  · exact hg.trans (grantEntry_of_modify_unset (s := t) hi ho hv)
  · have hm := hg.trans (grantEntry_of_modify (s := t) hi ho hv)
    refine ⟨fun hn => hm.trans ?_, fun hn hp => hm.trans ?_, fun hn hp => hm.trans ?_⟩
    · rw [conflictCheck_of_none (find_pending_of_none (s := t) hn)]
      rfl
    · have hk : e.op.kind = .modify := by rw [ho]; rfl
      rw [conflictCheck_of_potent (find_pending_of_some (s := t) hn) hp, refusePotent, hk]
      rfl
    · rw [conflictCheck_of_impotent (find_pending_of_some (s := t) hn) hp]
      rfl

/-- Settles O41: by the sender's claim, its state and the pending value of its point. -/
theorem releaseGrant : Obligations.ReleaseGrant := by
  refine ⟨fun o n p f s => ⟨?_, claimOf_eq o n p s, mapClaim_eq n p f s⟩, fun e it rest s hq ho hi => ?_⟩
  · exact congrArg s.claims.find? (funext fun c => claim_on_eq c n p)
  intro t no go
  have hg : grantFwd s = grantEntry e t := grantFwd_of_head hq
  have hk : e.op.kind = .release := by rw [ho]; rfl
  have hreply (st : Status) (c : CondSet) : ({ e with passed := c } : FwdEntry).reply st = no st c := by
    rw [FwdEntry.reply, hk]
    rfl
  have hgo (u : State) (c : CondSet) (hn : u.nodes = s.nodes) (hp : u.params = s.params) :
      afterReleaseConflict (conflictCheck { e with passed := c } [it.point] u) it = go u { e with passed := c } := by
    rw [afterReleaseConflict_eq, point_of_same_nodes hn, hp, hk]
    simp only [refuseGrant, hreply]
    rfl
  refine ⟨fun hc => ?_, fun c hc => ⟨fun hs hp => ?_, fun hs => ?_, fun hs hp => ?_⟩⟩
  · exact hg.trans ((grantEntry_of_release_unclaimed (s := t) hi ho hc).trans
      (congrArg (fun r => (t.respond r, false)) (hreply .noClaim e.passed)))
  · refine hg.trans ((grantEntry_of_release_potent (s := t) hi ho hc hs hp).trans ?_)
    rw [hk]
    exact congrArg (fun r => (State.respond r _, false)) (hreply .broken e.passed)
  · exact hg.trans ((grantEntry_of_release_intact (s := t) hi ho hc hs).trans (hgo t e.passed rfl rfl))
  · exact hg.trans ((grantEntry_of_release_impotent (s := t) hi ho hc hs hp).trans
      (hgo _ _ (impotentPass_nodes ..) (impotentPass_params ..)))

/-- Settles O42: what is presented by the state of the Commit Engine; a LOAD by its node and its outcome. -/
theorem commitTransactions : Obligations.CommitTransactions := by
  refine ⟨⟨fun s => ⟨ceBusy_iff s, cmtWork_of_busy, fun hb hw => ?_, cmtWork_of_no_commit, fun c tag hb hw hc ht => ?_⟩,
    fun c n cause s => ⟨failCommit_of_loaded n cause, failCommit_of_unloaded n cause⟩⟩, ⟨rfl, rfl, rfl⟩,
    fun c n tag s h => ⟨fun hn => ?_, grantCmt_of_load_failed h⟩, fun n tag items c cls s =>
      ⟨fun hc o => loadOutcome_of_no_commit n tag items o hc, fun hc hp ht => ?_⟩⟩
  · exact ⟨cmtWork_of_clear hb hw, grantCmt_of_clear (cmtWork_of_clear hb hw)⟩
  · have hwork := cmtWork_of_commit hb hw hc ht
    refine ⟨fun hp => ?_, fun hp => ?_, fun n cause hp => ?_⟩
    · simpa only [hp] using hwork
    · have hwork : s.cmtWork = some (.take tag) := by simpa only [hp] using hwork
      exact ⟨hwork, grantCmt_of_take hwork⟩
    · have hwork : s.cmtWork = some (.abandon tag) := by simpa only [hp] using hwork
      exact ⟨hwork, grantCmt_of_abandon hwork⟩
  · rw [grantCmt_of_load h hn, loadItems_eq]
  · have ho (o : DropOutcome) := loadOutcome_of_commit n items o hc hp ht
    exact ⟨(ho _).trans (loadAccepted_eq c n items), ho _, ho _⟩

/-- Settles O43: by the condition of the transaction in flight. -/
theorem replyWindow : Obligations.ReplyWindow := by
  refine ⟨fun u s hr ht hc hw => exec_of_effect ?_, fun u s hr ht hc => exec_of_effect ?_⟩
  · refine (unlessReset_of_not_low _ hr).trans ?_
    rw [unicastEnd_of_transmitting ht hc, windowTicks_eq u.window hw]
  · exact (unlessReset_of_not_low _ hr).trans (windowExpire_of_awaiting ht hc)

end

section
/-! SUPPORT. Outcomes at the Point Operation Unit (R80, R87, R90, R92, R112, R113) and the ends of broadcasts (R7, R31,
R128, R133, R134, R140). -/

namespace Sys2Proof.Machine

variable {s : State}

/-! ## The mask of a READ (Table 11-4) -/

theorem testBit_foldr_flags (flags : List Bool) : ∀ i : Nat,
    (flags.foldr (fun (b : Bool) acc => b.toNat + 2 * acc) 0).testBit i = flags.getD i false := by
  induction flags with
  | nil => simp
  | cons b flags ih =>
    have hb : b.toNat < 2 := by cases b <;> decide
    intro i
    cases i with
    | zero => cases b <;> simp [Nat.testBit_zero, Nat.add_mod]
    | succ i =>
      have hdiv (acc : Nat) : (b.toNat + 2 * acc) / 2 = acc := by omega
      simpa [Nat.testBit_succ, hdiv] using ih i

theorem getLsbD_maskOf (flags : List Bool) {i : Nat} (h : i < 16) : (maskOf flags).getLsbD i = flags.getD i false := by
  rw [maskOf, BitVec.getLsbD_ofNat, testBit_foldr_flags]
  simp [h]

theorem mismatch_eq (active : Option Word) (v : Word) : mismatch active v = decide (active ≠ some v) := by
  cases active with
  | none => rfl
  | some a => simp [mismatch, bne, beq_eq_decide]

/-! ## Outcomes at the Point Operation Unit -/

section Outcomes

variable {h : InHand} (hh : s.pou.inHand = some h)
include hh

/-- R80, R87, R112: the claim first, then the points when the node took them, then the response. -/
theorem writeOutcome_of_inHand (n : NodeIdx) (items : List Item) (o : DropOutcome) :
    s.writeOutcome n items o =
      let t := State.releaseOutcome h.entry o { s with pou := { s.pou with inHand := none } }
      State.respond
        { h.entry.reply o.status with
          flags := modifyFlags h.entry.passed h.modified
          body := modifyRespBody h.modified }
        (match o with
          | .accepted _ _ => t.applyWrite n items
          | .refused _ | .noReply => t) := by
  simp only [State.writeOutcome, hh] <;> rfl

theorem readOutcome_of_inHand (n : NodeIdx) (pts : List PointIdx) (o : DropOutcome) :
    s.readOutcome n pts o =
      State.respond
        { h.entry.reply o.status with
          body :=
            match o with
            | .accepted _ vs => readRespBody (s.node n) pts vs
            | .refused _ | .noReply => [] }
        { s with pou := { s.pou with inHand := none } } := by
  simp only [State.readOutcome, hh] <;> rfl

end Outcomes

theorem releaseOutcome_of_other {e : FwdEntry} (h : ∀ it, e.op ≠ .release it) (o : DropOutcome) :
    s.releaseOutcome e o = s := by
  unfold State.releaseOutcome
  split
  next it hit => exact absurd hit (h it)
  all_goals rfl

theorem releaseOutcome_of_release {e : FwdEntry} {it : Item} (h : e.op = .release it) (o : DropOutcome) :
    s.releaseOutcome e o =
      match o with
      | .accepted _ _ => s.removeBound e it.point
      | .refused _ | .noReply => s.unbind e it.point := by
  simp only [State.releaseOutcome, h] <;> rfl

theorem readRespBody_eq (e : NodeEntry) (pts : List PointIdx) (vs : List Word) :
    readRespBody e pts vs = byteOf vs.length :: vs.flatMap wordBytes ++
      wordBytes (maskOf (List.zipWith (fun p v => decide ((e.point p).active ≠ some v)) pts vs)) := by
  simp only [readRespBody, mismatch_eq]

/-! ## Pending values removed (R7) -/

theorem dropPending_cons (e : StageEntry) (es : List StageEntry) (s : State) :
    s.dropPending (e :: es) = (s.setPending e.node e.point none).dropPending es := rfl

theorem dropPending_point (n : NodeIdx) (p : PointIdx) (es : List StageEntry) : ∀ s : State,
    (s.dropPending es).point n p =
      if ∃ e ∈ es, e.node = n ∧ e.point = p then { s.point n p with pending := none } else s.point n p := by
  induction es with
  | nil => simp [State.dropPending]
  | cons e es ih =>
    intro s
    rw [dropPending_cons, ih]
    by_cases he : e.node = n ∧ e.point = p
    · obtain ⟨rfl, rfl⟩ := he
      have hmem : ∃ e' ∈ e :: es, e'.node = e.node ∧ e'.point = e.point := ⟨e, List.mem_cons_self, rfl, rfl⟩
      simp [setPending_point]
    · have hmem : (∃ e' ∈ e :: es, e'.node = n ∧ e'.point = p) ↔ ∃ e' ∈ es, e'.node = n ∧ e'.point = p := by
        simp [he]
      simp only [setPending_point, if_neg he, hmem]

theorem dropPending_node (n : NodeIdx) (es : List StageEntry) : ∀ s : State,
    (s.dropPending es).node n = { s.node n with points := ((s.dropPending es).node n).points } := by
  induction es with
  | nil => exact fun _ => rfl
  | cons e es ih =>
    intro s
    rw [dropPending_cons, ih, State.setPending, State.setPoint, node_setNode]
    split
    next h =>
      subst h
      rfl
    next => rfl

theorem dropPending_eq (es : List StageEntry) : ∀ s : State,
    s.dropPending es = { s with nodes := (s.dropPending es).nodes } := by
  induction es with
  | nil => exact fun _ => rfl
  | cons e es ih => exact fun s => (ih (s.setPending e.node e.point none)).trans rfl

/-! ## The ends of broadcasts (R31) -/

theorem endCommit_of_request {o : Originator} {tag : Byte} (h : (s.stage o).request = some tag) (st : Status)
    (body : List Byte) :
    s.endCommit o st body =
      let t := (s.respond
        { originator := o, tag := tag, kind := ReqKind.commit.code, status := st, body := body }).setStage o {}
      State.takeCommit { t with ce := { s.ce with commit := none } } := by
  rw [State.endCommit, answerCommit_of_request h]
  simp only [State.closeStage, setStage_ce, respond_ce]

theorem takeEnded_of_taking {c : Commit} {tag : Byte} (hc : s.ce.commit = some c) (hp : c.phase = .taking)
    (ht : (s.stage c.originator).tag = some tag) : s.takeEnded tag = s.endTake c tag := by
  have h : c.phase = .taking ∧ s.commitTag c = some tag := ⟨hp, ht⟩
  simp only [State.takeEnded, hc, if_pos h]

theorem abandonEnded_of_abandoning {c : Commit} {tag : Byte} {n : NodeIdx} {cause : FailCause}
    (hc : s.ce.commit = some c) (hp : c.phase = .abandoning n cause) (ht : (s.stage c.originator).tag = some tag) :
    s.abandonEnded tag = s.endFailed c n cause := by
  have h : s.commitTag c = some tag := ht
  simp only [State.abandonEnded, hc, hp, if_pos h]

theorem takeEnded_of_no_commit (tag : Byte) (h : s.ce.commit = none) : s.takeEnded tag = s := by
  simp only [State.takeEnded, h]

theorem abandonEnded_of_no_commit (tag : Byte) (h : s.ce.commit = none) : s.abandonEnded tag = s := by
  simp only [State.abandonEnded, h]

theorem takeOrder_eq (order : List NodeIdx) (es : List StageEntry) :
    takeOrder order es = order.flatMap fun n => es.filter fun e => decide (e.node = n) := by
  simp only [takeOrder, beq_eq_decide]

theorem takeTransmitted_of_take {tag : Byte} (h : s.dbc.txn = some (.broad (.take tag))) :
    s.takeTransmitted = finish s (s.freeBus.takeEnded tag) := by simp only [State.takeTransmitted, h]

theorem abandonTransmitted_of_abandon {tag : Byte} (h0 : tag ≠ 0) (h : s.dbc.txn = some (.broad (.abandon tag))) :
    s.abandonTransmitted = finish s (s.freeBus.abandonEnded tag) := by
  simp only [State.abandonTransmitted, h, if_neg h0]

theorem clearTransmitted_of_clear (h : s.dbc.txn = some (.broad (.abandon 0))) :
    s.clearTransmitted = finish s s.freeBus.clearEnded := by
  simp only [State.clearTransmitted, h, if_true]

end Sys2Proof.Machine

open Sys2Proof Sys2Proof.Machine

/-- Settles O46: the request in hand by its kind, and the outcome. -/
theorem pointOutcomes : Obligations.PointOutcomes := by
  refine ⟨⟨fun _ => rfl, fun _ _ _ => rfl, fun _ => rfl, fun _ => rfl⟩, fun flags i => getLsbD_maskOf flags,
    fun n items h s c hh ho hm => ?_, fun n h s c hh => ⟨fun items p o b v changed ho hm => ?_, fun it ho hm => ?_,
      fun pts vs ho => ?_⟩⟩
  · have hw (o : DropOutcome) := writeOutcome_of_inHand hh n items o
    simp only [releaseOutcome_of_other (e := h.entry) (by simp [ho]), hm, FwdEntry.reply, ho] at hw
    exact ⟨hw _, hw _, hw _⟩
  · have hw (o : DropOutcome) := writeOutcome_of_inHand hh n items o
    simp only [releaseOutcome_of_other (e := h.entry) (by simp [ho]), hm, FwdEntry.reply] at hw
    exact ⟨hw _, hw _, hw _⟩
  · have hw (o : DropOutcome) := writeOutcome_of_inHand hh n [it] o
    simp only [releaseOutcome_of_release ho, hm, FwdEntry.reply] at hw
    exact ⟨hw _, hw _, hw _⟩
  · have hr (o : DropOutcome) := readOutcome_of_inHand hh n pts o
    simp only [readRespBody_eq, FwdEntry.reply] at hr
    exact ⟨hr _, hr _, hr _⟩

/-- Settles O48: by the frame whose transmission ends and by the commit in flight. -/
theorem broadcastEnds : Obligations.BroadcastEnds := by
  refine ⟨fun tag c s hr ht hc hp htag => exec_of_effect ?_, fun s hr => ⟨fun tag c n cause h0 ht hc hp htag =>
      exec_of_effect ?_, fun ht => exec_of_effect ?_⟩, fun o st body tag s h => endCommit_of_request h st body,
    fun es s n p => ⟨dropPending_point n p es s, dropPending_node n es s, dropPending_eq es s⟩,
    fun s hr hc => ⟨fun tag ht => exec_of_effect ?_, fun tag h0 ht => exec_of_effect ?_⟩⟩
  · refine (unlessReset_of_not_low _ hr).trans ((takeTransmitted_of_take ht).trans (congrArg (finish s) ?_))
    refine (takeEnded_of_taking (s := s.freeBus) hc hp htag).trans ?_
    simp only [State.endTake, takeOrder_eq]
    rfl
  · refine (unlessReset_of_not_low _ hr).trans ((abandonTransmitted_of_abandon h0 ht).trans (congrArg (finish s) ?_))
    exact abandonEnded_of_abandoning (s := s.freeBus) hc hp htag
  · exact (unlessReset_of_not_low _ hr).trans (clearTransmitted_of_clear ht)
  · refine (unlessReset_of_not_low _ hr).trans ((takeTransmitted_of_take ht).trans (congrArg (finish s) ?_))
    exact takeEnded_of_no_commit (s := s.freeBus) tag hc
  · refine (unlessReset_of_not_low _ hr).trans ((abandonTransmitted_of_abandon h0 ht).trans (congrArg (finish s) ?_))
    exact abandonEnded_of_no_commit (s := s.freeBus) tag hc

end

section
/-! SUPPORT. The choice of the renewal candidate (R50), and accrual (R44 to R47). -/

namespace Sys2Proof.Machine

/-! ## The preference of R50 -/

theorem beats_iff (a b : Offer) : a.beats b = true ↔
    levelRank b.level < levelRank a.level ∨ (levelRank a.level = levelRank b.level ∧ b.debt < a.debt) := by
  simp [Offer.beats]

theorem levelRank_inj : ∀ {a b : Level}, levelRank a = levelRank b → a = b
  | .low, .low, _ => rfl
  | .high, .high, _ => rfl
  | .panic, .panic, _ => rfl

/-- Among the offers of the places before `k`, this one is preferred: it beats the earlier ones and no later one beats
it. -/
structure Preferred (f : Nat → Option Offer) (k i : Nat) (o : Offer) : Prop where
  before : i < k
  offered : f i = some o
  beats : ∀ j a, j < i → f j = some a → o.beats a = true
  unbeaten : ∀ j a, i < j → j < k → f j = some a → a.beats o = false

/-- What one more place does to the preferred offer. -/
theorem Preferred.next {f : Nat → Option Offer} {k i : Nat} {o : Offer} (h : Preferred f k i o) :
    ∃ i' o', preferOffer (some o) (f k) = some o' ∧ Preferred f (k + 1) i' o' := by
  obtain ⟨hi, ho, hb, hu⟩ := h
  cases hf : f k with
  | none =>
    refine ⟨i, o, rfl, by omega, ho, hb, fun j a hij hj ha => ?_⟩
    obtain hj | rfl := Nat.lt_succ_iff_lt_or_eq.mp hj
    · exact hu j a hij hj ha
    · rw [hf] at ha
      contradiction
  | some x =>
    by_cases hx : x.beats o = true
    · refine ⟨k, x, by simp [preferOffer, hx], by omega, hf, fun j a hj ha => ?_, fun j a hkj hj => by omega⟩
      have hxo := (beats_iff x o).1 hx
      rw [beats_iff]
      obtain hj' | rfl | hj' := Nat.lt_trichotomy j i
      · have hoa := (beats_iff o a).1 (hb j a hj' ha)
        omega
      · obtain rfl : o = a := Option.some.inj (ho.symm.trans ha)
        exact hxo
      · have hao := hu j a hj' hj ha
        rw [Bool.eq_false_iff, ne_eq, beats_iff] at hao
        omega
    · refine ⟨i, o, by simp [preferOffer, hx], by omega, ho, hb, fun j a hij hj ha => ?_⟩
      obtain hj | rfl := Nat.lt_succ_iff_lt_or_eq.mp hj
      · exact hu j a hij hj ha
      · obtain rfl : x = a := Option.some.inj (hf.symm.trans ha)
        exact Bool.eq_false_iff.mpr hx

/-- R50: taking the places one after another finds no offer where there is none, and else the preferred one. -/
theorem foldl_preferOffer (f : Nat → Option Offer) (k : Nat) :
    let r := (List.range k).foldl (fun best i => preferOffer best (f i)) none
    (r = none ∧ ∀ i < k, f i = none) ∨ ∃ i o, r = some o ∧ Preferred f k i o := by
  induction k with
  | zero => exact .inl ⟨rfl, by simp⟩
  | succ k ih =>
    simp only [List.range_succ, List.foldl_append, List.foldl_cons, List.foldl_nil]
    obtain ⟨hr, hn⟩ | ⟨i, o, hr, hp⟩ := ih
    · rw [hr]
      cases hf : f k with
      | none =>
        refine .inl ⟨rfl, fun i hi => ?_⟩
        obtain hi | rfl := Nat.lt_succ_iff_lt_or_eq.mp hi
        · exact hn i hi
        · exact hf
      | some x =>
        refine .inr ⟨k, x, rfl, by omega, hf, fun j a hj ha => ?_, fun j a hkj hj => by omega⟩
        rw [hn j hj] at ha
        contradiction
    · rw [hr]
      exact .inr hp.next

/-! ## The scan (R50 step 3) -/

/-- The node at a place of the scan. -/
def scanned (last : NodeIdx) (i : Nat) : NodeIdx := Fin.ofNat 48 (last.val + 1 + i)

/-- The place of a node in the scan. -/
def scanPlace (last n : NodeIdx) : Nat := (n.val + 48 - last.val - 1) % 48

theorem scanned_scanPlace (last n : NodeIdx) : scanned last (scanPlace last n) = n := by
  have hn := n.isLt
  have hl := last.isLt
  refine Fin.ext ?_
  show (last.val + 1 + (n.val + 48 - last.val - 1) % 48) % 48 = n.val
  omega

theorem scanPlace_scanned (last : NodeIdx) {i : Nat} (h : i < 48) : scanPlace last (scanned last i) = i := by
  have hl := last.isLt
  show ((last.val + 1 + i) % 48 + 48 - last.val - 1) % 48 = i
  omega

theorem scanPlace_lt (last n : NodeIdx) : scanPlace last n < 48 := Nat.mod_lt _ (by decide)

theorem candidate_eq (s : State) :
    s.candidate = (List.range 48).foldl
      (fun best i => preferOffer best (s.offerOf (scanned s.rs.lastRenewed i))) none := by
  rw [State.candidate, scanOrder, List.foldl_map]
  rfl

theorem offerOf_eq_some_iff (s : State) (n : NodeIdx) (o : Offer) :
    s.offerOf n = some o ↔ levelOf s.params (s.node n) = some o.level ∧ o.node = n ∧ o.debt = (s.node n).debt := by
  rw [State.offerOf, Option.map_eq_some_iff]
  constructor
  · rintro ⟨l, hl, rfl⟩
    exact ⟨hl, rfl, rfl⟩
  · rintro ⟨hl, rfl, hd⟩
    exact ⟨o.level, hl, by rw [← hd]⟩

theorem candidate_none_iff (s : State) : s.candidate = none ↔ ∀ n : NodeIdx, levelOf s.params (s.node n) = none := by
  refine ⟨fun h n => ?_, candidate_none⟩
  obtain ⟨-, hn⟩ | ⟨i, o, ho, -⟩ := foldl_preferOffer (fun i => s.offerOf (scanned s.rs.lastRenewed i)) 48
  · have hp := hn _ (scanPlace_lt s.rs.lastRenewed n)
    rw [scanned_scanPlace, State.offerOf, Option.map_eq_none_iff] at hp
    exact hp
  · rw [candidate_eq, ho] at h
    contradiction

/-- R50: the candidate is the preferred offer of the scan. -/
theorem preferred_of_candidate {s : State} {o : Offer} (h : s.candidate = some o) :
    Preferred (fun i => s.offerOf (scanned s.rs.lastRenewed i)) 48 (scanPlace s.rs.lastRenewed o.node) o := by
  obtain ⟨hn, -⟩ | ⟨i, o', ho, hp⟩ := foldl_preferOffer (fun i => s.offerOf (scanned s.rs.lastRenewed i)) 48
  · rw [candidate_eq, hn] at h
    contradiction
  · rw [candidate_eq, ho] at h
    obtain rfl : o' = o := Option.some.inj h
    obtain ⟨-, hnode, -⟩ := (offerOf_eq_some_iff s _ _).1 hp.offered
    rwa [hnode, scanPlace_scanned _ hp.before]

/-! ## Accrual -/

theorem accruesAt_staggered (p : Fin 4) (n : NodeIdx) : accruesAt true p n = true ↔ (n.val + 1) % 4 = p.val := by
  simp [accruesAt, NodeIdx.addr]

theorem accruesAt_together (p : Fin 4) (n : NodeIdx) : accruesAt false p n = true ↔ p = 0 := by
  simp [accruesAt]

end Sys2Proof.Machine

open Sys2Proof Sys2Proof.Machine

/-- Settles O50: the candidate is preferred to every other offer, by the other's place in the scan. -/
theorem renewalCandidate : Obligations.RenewalCandidate := by
  intro s rank
  have hrank (l : Level) : rank l = levelRank l := by cases l <;> rfl
  refine ⟨candidate_none_iff s, fun o h => ?_⟩
  obtain ⟨-, ho, hbeats, hun⟩ := preferred_of_candidate h
  obtain ⟨hlevel, -, hdebt⟩ := (offerOf_eq_some_iff s _ _).1 ho
  rw [scanned_scanPlace] at hlevel hdebt
  refine ⟨hlevel, hdebt, fun m l hl => ?_⟩
  rw [hrank, hrank]
  have ha : s.offerOf (scanned s.rs.lastRenewed (scanPlace s.rs.lastRenewed m)) =
      some { node := m, level := l, debt := (s.node m).debt } := by
    rw [scanned_scanPlace]
    exact (offerOf_eq_some_iff s m _).2 ⟨hl, rfl, rfl⟩
  obtain hj | hj := Nat.lt_or_ge (scanPlace s.rs.lastRenewed m) (scanPlace s.rs.lastRenewed o.node)
  · obtain hb | ⟨hr, hd⟩ := (beats_iff _ _).1 (hbeats _ _ hj ha)
    · exact .inl hb
    · exact .inr (.inl ⟨(levelRank_inj hr).symm, hd⟩)
  · have hnb : ¬(levelRank o.level < levelRank l ∨ (levelRank l = levelRank o.level ∧ o.debt < (s.node m).debt)) := by
      obtain hj | hj := Nat.lt_or_eq_of_le hj
      · have hb := hun _ _ hj (scanPlace_lt _ _) ha
        rwa [Bool.eq_false_iff, ne_eq, beats_iff] at hb
      · have hm : o.node = m := by
          rw [← scanned_scanPlace s.rs.lastRenewed o.node, hj, scanned_scanPlace]
        subst hm
        obtain rfl : l = o.level := Option.some.inj (hl.symm.trans hlevel)
        omega
    obtain hr | hr := Nat.lt_or_ge (levelRank l) (levelRank o.level)
    · exact .inl hr
    · have hl : l = o.level := levelRank_inj (by omega)
      subst hl
      obtain hd | hd := Nat.lt_or_ge (s.node m).debt o.debt
      · exact .inr (.inl ⟨rfl, hd⟩)
      · exact .inr (.inr ⟨rfl, by omega, hj⟩)

/-- Settles O51: by the state of the node and its debt; the phases by whether the nodes are staggered. -/
theorem accrual : Obligations.Accrual := by
  refine ⟨fun n e => ?_, fun p n => ⟨accruesAt_staggered p n, accruesAt_together p n⟩⟩
  intro add alt
  have hadd : accrualAmount e = add := rfl
  refine ⟨fun h hd => ?_, fun h hd => ?_, fun h hd => ?_, accrue_of_silent n, accrue_of_out_of_service n⟩
  · simp only [accrue_of_awake n h, hadd, Nat.not_lt.mpr hd, if_false]
    rfl
  · simp only [accrue_of_awake n (.inl h), hadd, hd, if_true, h]
    rfl
  · simp only [accrue_of_awake n (.inr h), hadd, hd, if_true, h]
    rfl

end

section
/-! SUPPORT. Phase events (R42, R43): what the event does to the timers, the nodes, the claims and the stages, and the
records it offers afterwards. -/

namespace Sys2Proof.Machine

variable {s : State}

/-! ## What a phase event changes before its records -/

/-- A phase event without its records. -/
def State.phaseBase (s : State) : State := s.advancePhase.accruePhase.agePhase

/-- R43: the records of a phase event, the three groups put into one order, and the free value's next index. -/
def State.phaseRecords (s : State) : List ExcBody × Nat :=
  let a := if s.advancePhase.rs.phase = 0 then s.advancePhase.claimRecords else []
  let b := if s.advancePhase.rs.phase = 0 then s.advancePhase.stageRecords else []
  let c := if s.advancePhase.mode = .halted then [] else s.advancePhase.accrualRecords s.advancePhase.rs.phase
  interleave Config.recordGroup (a.length + b.length + c.length) s.freeIndex a b c

theorem phaseStep_eq (s : State) :
    s.phaseStep = State.offerAll s.phaseRecords.1 { s.phaseBase with freeIndex := s.phaseRecords.2 } := by
  have h : s.phaseBase.freeIndex = s.freeIndex := by simp [State.phaseBase, State.advancePhase]
  rw [State.phaseRecords, ← h]
  rfl

/-- R42: after phase 3 the phases begin again. -/
theorem phase_wraps_iff : ∀ p : Fin 4, p + 1 = 0 ↔ p = 3 := by decide

theorem advancePhase_rs (s : State) : s.advancePhase.rs = { s.rs with
    phase := s.rs.phase + 1
    quarterLeft := 25 * s.params.renewalInterval
    intervalCount := if s.rs.phase = 3 then s.rs.intervalCount + 1 else s.rs.intervalCount } := by
  simp only [State.advancePhase, phase_wraps_iff]

theorem advancePhase_phase_zero (s : State) : s.advancePhase.rs.phase = 0 ↔ s.rs.phase = 3 := phase_wraps_iff s.rs.phase

theorem accrueAll_eq (p : Fin 4) (s : State) : s.accrueAll p = { s with nodes := (s.accrueAll p).nodes } := by
  have hfold (l : List NodeIdx) : ∀ t : State,
      l.foldl (fun s n => s.setNode n (accrue n (s.node n)).1) t =
        { t with nodes := (l.foldl (fun s n => s.setNode n (accrue n (s.node n)).1) t).nodes } := by
    induction l with
    | nil => exact fun _ => rfl
    | cons n l ih => exact fun t => (ih (t.setNode n (accrue n (t.node n)).1)).trans rfl
  exact hfold _ s

theorem accruePhase_eq (s : State) : s.accruePhase = { s with nodes := s.accruePhase.nodes } := by
  unfold State.accruePhase
  split
  · rfl
  · exact accrueAll_eq _ s

/-- R42, R45, R114, R123: the blocks that a phase event touches before its records. -/
theorem phaseBase_eq (s : State) : s.phaseBase = { s with
    rs := s.phaseBase.rs, nodes := s.phaseBase.nodes, claims := s.phaseBase.claims, stages := s.phaseBase.stages } := by
  unfold State.phaseBase State.agePhase
  split
  · rw [accruePhase_eq]
    rfl
  · rw [accruePhase_eq]
    rfl

theorem phaseBase_rs (s : State) : s.phaseBase.rs = s.advancePhase.rs := by simp [State.phaseBase]

theorem phaseBase_node (n : NodeIdx) (s : State) :
    s.phaseBase.node n =
      if s.mode ≠ .halted ∧ accruesAt s.params.stagger (s.rs.phase + 1) n = true
      then (accrue n (s.node n)).1 else s.node n := by
  have hnodes : s.phaseBase.node n = s.advancePhase.accruePhase.node n := congrArg (·[n]) (agePhase_nodes _)
  rw [hnodes, State.accruePhase]
  by_cases hm : s.mode = .halted
  · rw [if_pos (show s.advancePhase.mode = .halted from hm), if_neg (by simp [hm])]
    rfl
  · rw [if_neg (show s.advancePhase.mode ≠ .halted from hm), accrueAll_node]
    exact if_congr (by simp [hm]; rfl) rfl rfl

theorem aged_eq (c : Claim) : c.aged = if c.releasing then c else { c with life := c.life - 1 } := rfl

theorem not_expired (c : Claim) : (!c.expired) = (c.releasing || c.life != 0) := by
  simp [Claim.expired, bne]

theorem phaseBase_claims (s : State) :
    s.phaseBase.claims =
      if s.rs.phase = 3 then (s.claims.map Claim.aged).filter fun c => c.releasing || c.life != 0 else s.claims := by
  have hphase : s.advancePhase.accruePhase.rs.phase = 0 ↔ s.rs.phase = 3 := by
    rw [accruePhase_rs]
    exact advancePhase_phase_zero s
  unfold State.phaseBase State.agePhase
  simp only [hphase, ← not_expired]
  split
  · exact congrArg (fun l : List Claim => (l.map Claim.aged).filter fun c => !c.expired)
      (accruePhase_claims s.advancePhase)
  · exact accruePhase_claims s.advancePhase

theorem expires_eq (g : Stage) : g.expires = decide (g.state = .opened ∧ g.life.getD 0 ≤ 1) := by
  rw [Stage.expires, beq_eq_decide, ← Bool.decide_and]

theorem stage_aged_eq (g : Stage) :
    g.aged = if g.state = .opened then
        if g.life.getD 0 ≤ 1 then {} else { g with life := g.life.map fun l => l - 1 }
      else g := by
  unfold Stage.aged
  split
  next h => simp [expires_eq, h]
  all_goals
    next h => simp [h]

theorem phaseBase_stage (o : Originator) (s : State) :
    s.phaseBase.stage o = if s.rs.phase = 3 then (s.stage o).aged else s.stage o := by
  have hphase : s.advancePhase.accruePhase.rs.phase = 0 ↔ s.rs.phase = 3 := by
    rw [accruePhase_rs]
    exact advancePhase_phase_zero s
  have hst : s.advancePhase.accruePhase.stages = s.stages := accruePhase_stages s.advancePhase
  unfold State.phaseBase State.agePhase
  simp only [hphase]
  split
  · rw [stage_ageStages]
    exact congrArg (fun v : Vector Stage 4 => (v[o]).aged) hst
  · exact congrArg (fun v : Vector Stage 4 => v[o]) hst

/-! ## The records (R43, R45, R46, R114, R123) -/

/-- R114: the claims that expire at the next interval expiry. -/
def State.expiringClaims (s : State) : List Claim :=
  s.claims.filter fun c => decide (c.releasing = false ∧ c.life ≤ 1)

theorem claim_le_iff (c d : Claim) :
    c.le d = true ↔ c.node.val < d.node.val ∨ (c.node = d.node ∧ c.point.val ≤ d.point.val) := by
  simp [Claim.le]

theorem claim_le_total (c d : Claim) : c.le d = true ∨ d.le c = true := by
  simp only [claim_le_iff, Fin.ext_iff]
  omega

theorem claim_le_trans {c d e : Claim} (h : c.le d = true) (h' : d.le e = true) : c.le e = true := by
  simp only [claim_le_iff, Fin.ext_iff] at h h' ⊢
  omega

/-- R114: node by node, and point by point within a node. -/
def State.sortedClaims (s : State) : List Claim := s.expiringClaims.insertionSort fun c d => c.le d = true

theorem sortedClaims_perm (s : State) : s.sortedClaims.Perm s.expiringClaims := List.perm_insertionSort _ _

theorem sortedClaims_sorted (s : State) :
    s.sortedClaims.Pairwise fun c d => c.node.val < d.node.val ∨ (c.node = d.node ∧ c.point.val ≤ d.point.val) := by
  have htotal : Std.Total fun c d : Claim => c.le d = true := ⟨claim_le_total⟩
  have htrans : IsTrans Claim fun c d => c.le d = true := ⟨fun _ _ _ => claim_le_trans⟩
  exact (List.pairwise_insertionSort (fun c d : Claim => c.le d = true) s.expiringClaims).imp (claim_le_iff _ _).1

/-- R114: aging changes no claim's place in the order. -/
theorem aged_le_iff (c d : Claim) : c.le d = true ↔ c.aged.le d.aged = true := by
  have hkey (c : Claim) : c.aged.node = c.node ∧ c.aged.point = c.point := by
    rw [aged_eq]
    split <;> exact ⟨rfl, rfl⟩
  simp only [claim_le_iff, hkey]

theorem aged_expired (c : Claim) : c.aged.expired = decide (c.releasing = false ∧ c.life ≤ 1) := by
  rw [aged_eq]
  split
  next h => simp [Claim.expired, h]
  next h =>
    have hl : c.life - 1 = 0 ↔ c.life ≤ 1 := by omega
    simp [Claim.expired, h, beq_eq_decide, hl]

theorem claimRecords_eq (s : State) :
    s.claimRecords = s.sortedClaims.map fun c => .claimExpired c.node c.point c.originator := by
  have hfilter : (s.claims.map Claim.aged).filter Claim.expired = s.expiringClaims.map Claim.aged := by
    rw [List.filter_map]
    exact congrArg (List.map Claim.aged) (List.filter_congr fun c _ => aged_expired c)
  have hsort : (s.expiringClaims.map Claim.aged).insertionSort (fun a b => a.le b = true) =
      s.sortedClaims.map Claim.aged :=
    (List.map_insertionSort _ _ _ _ fun a _ b _ => aged_le_iff a b).symm
  rw [State.claimRecords, hfilter, hsort, List.map_map]
  refine List.map_congr_left fun c _ => ?_
  simp only [Function.comp_apply, aged_eq]
  split <;> rfl

theorem stageRecords_eq (s : State) :
    s.stageRecords = ((List.finRange 4).filter fun o =>
      decide ((s.stage o).state = .opened ∧ (s.stage o).life.getD 0 ≤ 1)).map
        fun o => .stageExpired o (s.stage o).entries.length := by
  simp only [State.stageRecords, expires_eq]

/-- R46: the record of an accrual. -/
theorem accrue_record (n : NodeIdx) (e : NodeEntry) :
    (accrue n e).2 = if e.state = .live ∧ 8 < e.debt + accrualAmount e then some (.lapse n .overdue) else none := by
  cases h : e.state with
  | live | lapsed =>
    rw [accrue_of_awake n (by simp [h])]
    dsimp only
    split <;> simp [*]
  | silent => simp [accrue_of_silent n h]
  | parked | absent => rw [accrue_of_out_of_service n (by simp [h])]; simp

/-- A choice of what is kept and how it is turned, as a filter and a map. -/
theorem filterMap_ite {α β : Type} (p : α → Bool) (f : α → β) (l : List α) :
    l.filterMap (fun a => if p a = true then some (f a) else none) = (l.filter p).map f := by
  induction l with
  | nil => rfl
  | cons a l ih => by_cases h : p a = true <;> simp [h, ih]

theorem accrualRecords_eq (s : State) (p : Fin 4) :
    s.accrualRecords p = ((List.finRange 48).filter fun n => decide (accruesAt s.params.stagger p n = true ∧
      (s.node n).state = .live ∧ 8 < (s.node n).debt + accrualAmount (s.node n))).map fun n => .lapse n .overdue := by
  have hrec (n : NodeIdx) : (accrue n (s.node n)).2 =
      if decide ((s.node n).state = .live ∧ 8 < (s.node n).debt + accrualAmount (s.node n)) = true
      then some (.lapse n .overdue) else none := by
    rw [accrue_record]
    exact if_congr decide_eq_true_iff.symm rfl rfl
  rw [State.accrualRecords, State.accrualNodes]
  simp only [hrec]
  rw [filterMap_ite, List.filter_filter]
  refine congrArg _ (List.filter_congr fun n _ => ?_)
  rw [Bool.eq_iff_iff]
  simp [and_comm]

end Sys2Proof.Machine

open Sys2Proof Sys2Proof.Machine

/-- Settles O52: the event without its records, block by block; and the records, group by group, put into one order
and offered after it. -/
theorem phaseEvent : Obligations.PhaseEvent := by
  refine ⟨fun s hr => ?_, fun s => ?_⟩
  · have hev : exec .phaseEvent s = .next (finish s s.phaseStep) := exec_of_effect (unlessReset_of_not_low _ hr)
    have hexp (hp : s.rs.phase = 3) : s.intervalExpiryEvent = finish s s.phaseStep := if_pos hp
    have hst (o : Originator) : s.phaseStep.stage o = s.phaseBase.stage o := by
      rw [phaseStep_eq]
      exact congrArg (fun v : Vector Stage 4 => v[o]) (offerAll_stages ..)
    refine ⟨hev, fun hp => exec_of_effect ((unlessReset_of_not_low _ hr).trans (hexp hp)), ?_, fun n => ?_, ?_,
      fun o => ?_⟩
    · rw [phaseStep_eq, offerAll_rs]
      exact (phaseBase_rs s).trans (advancePhase_rs s)
    · rw [phaseStep_eq, ← phaseBase_node]
      exact congrArg (·[n]) (offerAll_nodes ..)
    · rw [phaseStep_eq, offerAll_claims]
      exact phaseBase_claims s
    · rw [hst, phaseBase_stage, stage_aged_eq]
      split <;> simp [*]
  · have hstep := phaseStep_eq s
    have hrs : s.phaseStep.rs = s.phaseBase.rs := by rw [hstep, offerAll_rs]
    have hnodes : s.phaseStep.nodes = s.phaseBase.nodes := by rw [hstep, offerAll_nodes]
    have hclaims : s.phaseStep.claims = s.phaseBase.claims := by rw [hstep, offerAll_claims]
    have hstages : s.phaseStep.stages = s.phaseBase.stages := by rw [hstep, offerAll_stages]
    have hfree : s.phaseStep.freeIndex = s.phaseRecords.2 := by rw [hstep, offerAll_freeIndex]
    have hbase : s.phaseStep = s.phaseRecords.1.foldl (fun u x => u.offer x)
        { s with rs := s.phaseStep.rs, nodes := s.phaseStep.nodes, claims := s.phaseStep.claims,
                 stages := s.phaseStep.stages, freeIndex := s.phaseStep.freeIndex } := by
      rw [hrs, hnodes, hclaims, hstages, hfree, hstep, phaseBase_eq]
      rfl
    refine ⟨s.sortedClaims, s.phaseRecords.1, ?_⟩
    intro add a b l t room
    have ha : (if s.advancePhase.rs.phase = 0 then s.advancePhase.claimRecords else []) = a :=
      if_congr (advancePhase_phase_zero s) (claimRecords_eq s) rfl
    have hb : (if s.advancePhase.rs.phase = 0 then s.advancePhase.stageRecords else []) = b :=
      if_congr (advancePhase_phase_zero s) (stageRecords_eq s) rfl
    have hl : (if s.advancePhase.mode = .halted then [] else
        s.advancePhase.accrualRecords s.advancePhase.rs.phase) = l :=
      if_congr Iff.rfl rfl (accrualRecords_eq s.advancePhase _)
    have hmerge : Merges s.phaseRecords.1 a b l := by
      rw [State.phaseRecords, ha, hb, hl]
      exact interleave_merges ..
    have hqueue := offers_queue s.phaseRecords.1 { s with
      rs := s.phaseStep.rs, nodes := s.phaseStep.nodes, claims := s.phaseStep.claims,
      stages := s.phaseStep.stages, freeIndex := s.phaseStep.freeIndex }
    rw [← hbase] at hqueue
    exact ⟨sortedClaims_perm s, sortedClaims_sorted s, hmerge.perm, hmerge.first, hmerge.second, hmerge.third,
      hqueue.1, hqueue.2, hbase⟩

end

section
/-! SUPPORT. Layouts (R175 to R177, chapter 11): frames read back, the check byte by byte, and flag bytes bit by bit. -/

namespace Sys2Proof

/-! ## The frame check (R176) -/

/-- R176: one more byte under the check is eight more bits. -/
theorem crc16_append (bs : List Byte) (b : Byte) :
    crc16 (bs ++ [b]) = (List.range 8).foldl (fun c _ => crcBit c) (crc16 bs ^^^ (b.setWidth 16 <<< 8)) := by
  rw [crc16, List.foldl_append]
  rfl

/-- R176: the check of the nine characters 1 to 9. -/
theorem crc16_nine_digits : crc16 [0x31, 0x32, 0x33, 0x34, 0x35, 0x36, 0x37, 0x38, 0x39] = 0x29B1#16 := by
  decide +kernel

/-! ## The trunk request frame (section 11.2, R177) -/

/-- The two fields of byte 0. -/
theorem byteOf_fields_toNat (o : Originator) (d : BitVec 6) :
    (byteOf (o.val * 64 + d.toNat)).toNat = o.val * 64 + d.toNat :=
  byteOf_toNat (by have := o.isLt; have := d.isLt; omega)

theorem readTrunkFrame_trunkFrameBytes (kind : Byte) (rq : Request) :
    readTrunkFrame (trunkFrameBytes kind rq) = some (kind, rq) := by
  obtain ⟨o, d, tag, len, body⟩ := rq
  have ho := o.isLt
  have hd := d.isLt
  have horig : Fin.ofNat 4 ((byteOf (o.val * 64 + d.toNat)).toNat / 64) = o := by
    refine Fin.ext ?_
    show (byteOf (o.val * 64 + d.toNat)).toNat / 64 % 4 = o.val
    rw [byteOf_fields_toNat]
    omega
  have hdest : BitVec.ofNat 6 (byteOf (o.val * 64 + d.toNat)).toNat = d := by
    refine BitVec.eq_of_toNat_eq ?_
    rw [byteOf_fields_toNat, BitVec.toNat_ofNat]
    omega
  have hbody (w : Word) : (body ++ wordBytes w).take ((body ++ wordBytes w).length - 2) = body := by
    have hlen : (body ++ wordBytes w).length - 2 = body.length := by simp [wordBytes]
    rw [hlen, List.take_left]
  simp only [trunkFrameBytes, withCheck, List.cons_append, readTrunkFrame, horig, hdest, hbody]

theorem checkGood_trunkFrameBytes (kind : Byte) (rq : Request) : checkGood (trunkFrameBytes kind rq) = true :=
  checkGood_withCheck (by simp)

theorem length_itemBytes (its : List Item) : (itemBytes its).length = 3 * its.length := by
  induction its with
  | nil => rfl
  | cons it its ih =>
    simp only [itemBytes, List.flatMap_cons, List.length_append, List.length_cons] at ih ⊢
    rw [ih]
    simp [wordBytes]
    omega

theorem length_itemsBody (its : List Item) : (itemsBody its).length = 1 + 3 * its.length := by
  rw [itemsBody, List.length_cons, length_itemBytes, Nat.add_comm]

theorem length_pointsBody (pts : List PointIdx) : (pointsBody pts).length = 1 + pts.length := by
  rw [pointsBody, List.length_cons, pointBytes, List.length_map, Nat.add_comm]

/-! ## Flag bytes -/

/-- Section 11.3, byte 4, bit by bit. -/
theorem getLsbD_flags : ∀ o c b z h u p : Bool,
    let x := byteOf (o.toNat + 2 * c.toNat + 4 * b.toNat + 8 * z.toNat + 16 * h.toNat + 32 * u.toNat + 64 * p.toNat)
    x.getLsbD 0 = o ∧ x.getLsbD 1 = c ∧ x.getLsbD 2 = b ∧ x.getLsbD 3 = z ∧ x.getLsbD 4 = h ∧ x.getLsbD 5 = u ∧
      x.getLsbD 6 = p ∧ x.getLsbD 7 = false := by decide

/-- Table 11-7, byte 1, bit by bit. -/
theorem byteOf_marks : ∀ h a p : Bool, byteOf (h.toNat + 2 * a.toNat + 4 * p.toNat) =
    (if h then 0x01 else 0x00) ||| (if a then 0x02 else 0x00) ||| (if p then 0x04 else 0x00) := by decide

end Sys2Proof

namespace Sys2Proof.Machine

/-- R71: the value code of the manager set has the marks of the four originators and no more. -/
theorem getLsbD_managerSet (p : Params) (i : Nat) :
    (p.get .managerSet).getLsbD i = (decide (i < 8) && p.managerSet.getLsbD i) :=
  BitVec.getLsbD_setWidth ..

end Sys2Proof.Machine

open Sys2Proof Sys2Proof.Machine

/-- Settles O53: the check byte by byte; each frame and body read back by its reader's law; the layouts as they are
defined. -/
theorem framesReadAsLaidOut : Obligations.FramesReadAsLaidOut := by
  refine ⟨⟨crc16_nine_digits, fun bs h => checkGood_withCheck h⟩, fun kind rq => ?_,
    fun kind rq => ⟨checkGood_trunkFrameBytes kind rq, readTrunkFrame_trunkFrameBytes kind rq⟩,
    ⟨fun items h1 h16 hn => (readItemsBody_iff ..).2 ⟨h1, h16, hn, rfl⟩,
      fun pts h1 h16 hn => (readPointsBody_iff ..).2 ⟨h1, h16, hn, rfl⟩,
      fun p o b => (readModifyBody_iff ..).2 rfl, fun it => (readItemBody_iff ..).2 rfl,
      fun p b => (readTestBody_iff ..).2 rfl, fun p => (readPointBody_iff ..).2 rfl,
      fun n ds h1 h16 hn hw => (readConfigureBody_iff ..).2 ⟨h1, h16, hn, hw, rfl⟩,
      fun n => (readNodeBody_iff ..).2 rfl, fun ps h1 h16 hn => (readParamsBody_iff ..).2 ⟨h1, h16, hn, rfl⟩,
      fun m => (readModeBody_iff ..).2 rfl, fun c => (readOptionBody_iff ..).2 rfl,
      fun k h1 h8 => (readNumberBody_iff ..).2 ⟨h1, h8, rfl⟩, fun m => (readMaskBody_iff ..).2 rfl⟩,
    ⟨⟨rfl, fun bs b => ⟨rfl, crc16_append bs b⟩⟩, fun r => ⟨?_, ?_⟩, fun o flags n => ?_, fun n items pts tag => ?_⟩,
    ⟨fun n p o k w => ⟨rfl, rfl, rfl, rfl, rfl, rfl, rfl, rfl, rfl⟩, fun r => ?_, by decide, by decide, by decide,
      by decide, by decide, by decide, by decide, by decide⟩,
    fun p => ⟨rfl, fun o => ?_, fun i hi => ?_⟩⟩
  · rw [trunkFrameBytes, Nat.mul_comm]
    rfl
  · rw [TrunkFrame.bytes, originatorByte, Nat.mul_comm]
  · exact getLsbD_flags ..
  · rw [TrunkFrame.bytes, originatorByte, Nat.mul_comm]
    rfl
  · have hload : (tag :: itemsBody items).length = 2 + 3 * items.length := by
      rw [List.length_cons, length_itemsBody]
      omega
    simp only [UniFrame.bytes, dropFrameBytes, length_itemsBody, length_pointsBody, hload]
    exact ⟨rfl, rfl, rfl, rfl, rfl, rfl⟩
  · rw [PointRec.bytes, byteOf_marks]
    rfl
  · rw [getLsbD_managerSet]
    have := o.isLt
    simp [Params.isManager, show o.val < 8 by omega]
  · rw [getLsbD_managerSet, BitVec.getLsbD_of_ge _ _ hi, Bool.and_false]

end

section
/-! SUPPORT. The passing of time (R27, R33, R42; assumption logs 1, 4 and 5): 10 µs on the timers, and what runs out at
their end. -/

namespace Sys2Proof.Machine

variable {s : State}

/-! ## The reply window -/

theorem windowOut_of_free (h : s.dbc.txn = none) : s.windowOut = false := by simp [State.windowOut, h]

theorem windowOut_of_uni {u : UniTxn} (h : s.dbc.txn = some (.uni u)) :
    s.windowOut = (u.cond == .awaiting && u.windowLeft == 0) := by simp [State.windowOut, h]

theorem windowOut_of_starting {u : UniTxn} (h : s.dbc.txn = some (.uni u)) (hc : u.cond = .transmitting) :
    s.windowOut = false := by simp [windowOut_of_uni h, hc]

theorem windowOut_of_broad {f : BroadFrame} (h : s.dbc.txn = some (.broad f)) : s.windowOut = false := by
  simp [State.windowOut, h]

theorem windowOut_congr {t : State} (h : t.dbc = s.dbc) : t.windowOut = s.windowOut := by
  unfold State.windowOut
  rw [h]

/-! ## No decision leaves a reply window run out -/

theorem conflictCheck_dbc (e : FwdEntry) (pts : List PointIdx) (s : State) :
    (conflictCheck e pts s).state.dbc = s.dbc := by
  unfold conflictCheck
  split
  · rfl
  · split <;> simp [refusePotent, passImpotent]

theorem brokenCheck_dbc (e : FwdEntry) (p : PointIdx) (c : Claim) (s : State) :
    (brokenCheck e p c s).state.dbc = s.dbc := by
  unfold brokenCheck
  split
  · rfl
  · split <;> simp [refusePotent, passImpotent]

/-- R79: a refused grant leaves the bus as it was. -/
theorem refuseGrant_dbc (e : FwdEntry) (st : Status) (s : State) : (refuseGrant e st s).1.dbc = s.dbc := by
  simp [refuseGrant]

/-- R26: a transaction starts TRANSMITTING. -/
theorem startInHand_windowOut (e : FwdEntry) (m : Option (Word × Bool)) (f : UniFrame) (s : State) :
    (startInHand e m f s).1.windowOut = false := rfl

theorem afterConflict_windowOut (g : GrantCheck) (m : Option (Word × Bool)) (f : UniFrame)
    (h : g.state.windowOut = false) : (afterConflict g m f).1.windowOut = false := by
  unfold afterConflict
  split
  · exact (windowOut_congr (refuseGrant_dbc ..)).trans h
  · exact startInHand_windowOut ..

theorem conflictCheck_windowOut (e : FwdEntry) (pts : List PointIdx) (h : s.windowOut = false) :
    (conflictCheck e pts s).state.windowOut = false := (windowOut_congr (conflictCheck_dbc ..)).trans h

theorem brokenCheck_windowOut (e : FwdEntry) (p : PointIdx) (c : Claim) (h : s.windowOut = false) :
    (brokenCheck e p c s).state.windowOut = false := (windowOut_congr (brokenCheck_dbc ..)).trans h

theorem refuseGrant_windowOut (e : FwdEntry) (st : Status) (h : s.windowOut = false) :
    (refuseGrant e st s).1.windowOut = false := (windowOut_congr (refuseGrant_dbc ..)).trans h

theorem afterReleaseConflict_windowOut (g : GrantCheck) (it : Item) (h : g.state.windowOut = false) :
    (afterReleaseConflict g it).1.windowOut = false := by
  unfold afterReleaseConflict
  split
  · exact refuseGrant_windowOut _ _ h
  · exact startInHand_windowOut ..

theorem grantEntry_windowOut (e : FwdEntry) (h : s.windowOut = false) : (grantEntry e s).1.windowOut = false := by
  unfold grantEntry
  split
  · split
    next => exact startInHand_windowOut ..
    next => exact afterConflict_windowOut _ _ _ (conflictCheck_windowOut _ _ h)
    next =>
      split
      · exact refuseGrant_windowOut _ _ h
      · exact afterConflict_windowOut _ _ _ (conflictCheck_windowOut _ _ h)
    next =>
      split
      · exact refuseGrant_windowOut _ _ h
      next c _ =>
        dsimp only
        split
        · exact refuseGrant_windowOut _ _ (brokenCheck_windowOut _ _ _ h)
        · exact afterReleaseConflict_windowOut _ _ (conflictCheck_windowOut _ _ (brokenCheck_windowOut _ _ _ h))
  · exact refuseGrant_windowOut _ _ h

theorem grantRnw_of_no_candidate (h : s.candidate = none) : grantRnw s = (s, true) := by
  unfold grantRnw
  rw [h]

theorem grant_windowOut (r : Requester) (h : s.windowOut = false) : (grant r s).1.windowOut = false := by
  cases r with
  | fwd =>
    simp only [grant, grantFwd]
    split
    · exact h
    · exact grantEntry_windowOut _ h
  | cmt =>
    simp only [grant, grantCmt]
    split
    · exact h
    iterate 3 rfl
    · split
      iterate 2 rfl
      all_goals exact (windowOut_congr (failCommit_dbc ..)).trans h
  | rnw =>
    obtain hc | ⟨o, hc⟩ := Option.eq_none_or_eq_some s.candidate
    · exact (congrArg (fun g : State × Bool => g.1.windowOut) (grantRnw_of_no_candidate hc)).trans h
    · have hg := congrArg Prod.fst (grantRnw_of_candidate hc)
      exact windowOut_of_starting (congrArg (fun t : State => t.dbc.txn) hg) rfl

theorem decideGrant_windowOut (r : Requester) (st : GrantStep) (h : s.windowOut = false) :
    (s.decideGrant r st).1.windowOut = false := by
  have hb : (s.bookGrant r st).windowOut = false := h
  refine (windowOut_congr ?_).trans (grant_windowOut r hb)
  simp [State.decideGrant]

theorem arbitrate_windowOut (h : s.windowOut = false) : s.arbitrate.windowOut = false :=
  arbitrate_keeps (P := fun s => s.windowOut = false) (fun _ r st h _ => decideGrant_windowOut r st h) h

theorem finish_windowOut (b : State) (h : s.windowOut = false) : (finish b s).windowOut = false := by
  refine finish_keeps (P := fun s => s.windowOut = false) (fun _ t h _ _ => (windowOut_congr (s := t) rfl).trans h)
    (fun _ r st h _ => decideGrant_windowOut r st h) b ?_
  exact (windowOut_congr (s := s) (endDrain_dbc ..)).trans h

/-! ## A phase event and the bus -/

theorem phaseStep_dbc (s : State) : s.phaseStep.dbc = s.dbc := by
  have h : s.phaseBase.dbc = s.dbc := by rw [phaseBase_eq]
  rw [phaseStep_eq, offerAll_dbc, h]

theorem phaseEvent_windowOut (h : s.windowOut = false) : s.phaseEvent.windowOut = false :=
  finish_windowOut s ((windowOut_congr (phaseStep_dbc s)).trans h)

/-- R35: while the bus is not FREE a phase event leaves it as it was. -/
theorem phaseEvent_dbc_of_busy (h : s.dbc.txn.isSome = true) : s.phaseEvent.dbc = s.dbc := by
  have hb : s.phaseStep.dbc.txn.isSome = true := (phaseStep_dbc s).symm ▸ h
  rw [State.phaseEvent, finish_of_busy hb, closeEvent_dbc, phaseStep_dbc]

/-! ## The timers (R27, R33, R42) -/

theorem advanceTimers_of_free (h : s.dbc.txn = none) : s.advanceTimers = { s with
    rs := { s.rs with quarterLeft := s.rs.quarterLeft - 1 }
    dbc := { s.dbc with idleTimer := min (s.dbc.idleTimer + 1) 255 } } := by
  simp [State.advanceTimers, State.busFree, h]

theorem advanceTimers_of_uni {u : UniTxn} (h : s.dbc.txn = some (.uni u)) : s.advanceTimers = { s with
    rs := { s.rs with quarterLeft := s.rs.quarterLeft - 1 }
    dbc := { s.dbc with txn := some (.uni
      (if u.cond = .awaiting then { u with windowLeft := u.windowLeft - 1 } else u)) } } := by
  by_cases hc : u.cond = .awaiting <;> simp [State.advanceTimers, State.busFree, h, hc]

theorem advanceTimers_of_broad {f : BroadFrame} (h : s.dbc.txn = some (.broad f)) : s.advanceTimers = { s with
    rs := { s.rs with quarterLeft := s.rs.quarterLeft - 1 } } := by
  have hd : ({ s.dbc with txn := some (.broad f) } : DropBus) = s.dbc := by rw [← h]
  simp only [State.advanceTimers, State.busFree, h, Option.isNone_some, Bool.false_eq_true, if_false, hd]

theorem advanceTimers_windowOut_of_uni {u : UniTxn} (h : s.dbc.txn = some (.uni u)) :
    s.advanceTimers.windowOut = (u.cond == .awaiting && u.windowLeft - 1 == 0) := by
  rw [advanceTimers_of_uni h, windowOut_of_uni rfl]
  cases hc : u.cond with
  | awaiting => simp
  | transmitting =>
    rw [if_neg (by decide), hc]
    rfl

theorem advanceTimers_windowOut_of_broad {f : BroadFrame} (h : s.dbc.txn = some (.broad f)) :
    s.advanceTimers.windowOut = false := by
  rw [advanceTimers_of_broad h]
  exact windowOut_of_broad h

/-- R27: only the quarter runs while the part is TRANSMITTING. -/
theorem advanceTimers_of_transmitting {u : UniTxn} (h : s.dbc.txn = some (.uni u)) (hc : u.cond = .transmitting) :
    s.advanceTimers = { s with rs := { s.rs with quarterLeft := s.rs.quarterLeft - 1 } } := by
  have hd : ({ s.dbc with txn := some (.uni u) } : DropBus) = s.dbc := by rw [← h]
  rw [advanceTimers_of_uni h, if_neg (by simp [hc]), hd]

@[simp] theorem advanceTimers_quarterLeft : s.advanceTimers.rs.quarterLeft = s.rs.quarterLeft - 1 := rfl

/-- The idle timer reaches the idle window with these 10 µs. -/
def State.idleReached (s : State) : Bool := s.busFree && s.dbc.idleTimer + 1 == s.params.idleWindow

theorem idleReached_iff (s : State) :
    s.idleReached = true ↔ s.dbc.txn = none ∧ s.dbc.idleTimer + 1 = s.params.idleWindow := by
  simp [State.idleReached, State.busFree]

theorem idleReached_of_busy (h : s.dbc.txn.isSome = true) : s.idleReached = false := by
  refine Bool.eq_false_iff.mpr fun hi => ?_
  simp [((idleReached_iff s).1 hi).1] at h

theorem idleReached_of_ne (h : s.dbc.idleTimer + 1 ≠ s.params.idleWindow) : s.idleReached = false :=
  Bool.eq_false_iff.mpr fun hi => h ((idleReached_iff s).1 hi).2

/-! ## What runs out at the end of 10 µs -/

theorem tick_of_reset (h : s.resetLow = true) : s.tick = s := by simp [State.tick, h]

section Ticks

variable (hr : s.resetLow = false)
include hr

theorem tick_eq : s.tick =
    if s.advanceTimers.rs.quarterLeft = 0 then
      if s.advanceTimers.windowOut = true ∨ s.idleReached = true then
        if Config.phaseFirst s.freeIndex = true
        then State.busTimer s.idleReached { s.advanceTimers with freeIndex := s.freeIndex + 1 }.phaseEvent
        else State.phaseEvent (State.busTimer s.idleReached { s.advanceTimers with freeIndex := s.freeIndex + 1 })
      else s.advanceTimers.phaseEvent
    else s.advanceTimers.busTimer s.idleReached := by
  have hfree (hw : s.advanceTimers.windowOut = false) (hi : s.idleReached = false) :
      s.advanceTimers.busTimer s.idleReached = s.advanceTimers := by simp [State.busTimer, hw, hi]
  unfold State.tick
  rw [if_neg (by simp [hr])]
  show (if (s.advanceTimers.rs.quarterLeft == 0 && (s.advanceTimers.windowOut || s.idleReached)) = true then _
    else if (s.advanceTimers.rs.quarterLeft == 0) = true then _
    else if (s.advanceTimers.windowOut || s.idleReached) = true then _ else _) = _
  simp only [Bool.and_eq_true, Bool.or_eq_true, beq_iff_eq]
  by_cases hq : s.advanceTimers.rs.quarterLeft = 0
  · by_cases hb : s.advanceTimers.windowOut = true ∨ s.idleReached = true
    · rw [if_pos ⟨hq, hb⟩, if_pos hq, if_pos hb]
      rfl
    · rw [if_neg (fun h => hb h.2), if_pos hq, if_pos hq, if_neg hb]
  · rw [if_neg (fun h => hq h.1), if_neg hq, if_neg hq]
    split
    · rfl
    next hb =>
      rw [not_or, Bool.not_eq_true, Bool.not_eq_true] at hb
      exact (hfree hb.1 hb.2).symm

theorem tick_of_quarter_running (hq : 2 ≤ s.rs.quarterLeft) :
    s.tick = s.advanceTimers.busTimer s.idleReached := by
  rw [tick_eq hr, if_neg (by rw [advanceTimers_quarterLeft]; omega)]

theorem tick_of_phase_alone (hq : s.rs.quarterLeft ≤ 1) (hw : s.advanceTimers.windowOut = false)
    (hi : s.idleReached = false) : s.tick = s.advanceTimers.phaseEvent := by
  rw [tick_eq hr, if_pos (by rw [advanceTimers_quarterLeft]; omega), if_neg (by simp [hw, hi])]

theorem tick_of_both (hq : s.rs.quarterLeft ≤ 1) (hb : s.advanceTimers.windowOut = true ∨ s.idleReached = true) :
    s.tick = if Config.phaseFirst s.freeIndex = true
      then State.busTimer s.idleReached { s.advanceTimers with freeIndex := s.freeIndex + 1 }.phaseEvent
      else State.phaseEvent (State.busTimer s.idleReached { s.advanceTimers with freeIndex := s.freeIndex + 1 }) := by
  rw [tick_eq hr, if_pos (by rw [advanceTimers_quarterLeft]; omega), if_pos hb]

end Ticks

theorem busTimer_of_window (i : Bool) (h : s.windowOut = true) : s.busTimer i = s.windowExpire := by
  simp [State.busTimer, h]

theorem busTimer_not_reached (h : s.windowOut = false) : s.busTimer false = s := by simp [State.busTimer, h]

theorem busTimer_of_reached (h : s.windowOut = false) :
    s.busTimer true = if s.dbc.txn = none then s.arbitrate else s := by
  simp [State.busTimer, h, State.busFree]

theorem step_of_idle (h : s.pending = []) : step s = .next s.tick := by
  simp only [step, h]

/-! ## The events that time brings -/

theorem exec_phaseEvent_of_high (h : s.resetLow = false) : exec .phaseEvent s = .next s.phaseEvent :=
  exec_of_effect (unlessReset_of_not_low _ h)

theorem exec_arbiterDecision_of_high (h : s.resetLow = false) : exec .arbiterDecision s = .next s.arbitrate :=
  exec_of_effect (unlessReset_of_not_low _ h)

theorem exec_replyWindowExpiry_of_high (h : s.resetLow = false) : exec .replyWindowExpiry s = .next s.windowExpire :=
  exec_of_effect (unlessReset_of_not_low _ h)

/-! ## 10 µs, bus by bus -/

section Buses

variable (hp : s.pending = []) (hr : s.resetLow = false)
include hp hr

/-- R33, R35: the bus FREE, the quarter running. -/
theorem step_of_free_running (hq : 2 ≤ s.rs.quarterLeft) (ht : s.dbc.txn = none) : step s = .next
    (if s.idleReached = true then s.advanceTimers.arbitrate else s.advanceTimers) := by
  have ht' : s.advanceTimers.dbc.txn = none := by rw [advanceTimers_of_free ht]; exact ht
  rw [step_of_idle hp, tick_of_quarter_running hr hq]
  cases s.idleReached with
  | false => rw [busTimer_not_reached (windowOut_of_free ht'), if_neg Bool.false_ne_true]
  | true => rw [busTimer_of_reached (windowOut_of_free ht'), if_pos ht', if_pos rfl]

/-- R27, R30: a transaction in flight, the quarter running. -/
theorem step_of_busy_running (hq : 2 ≤ s.rs.quarterLeft) (ht : s.dbc.txn.isSome = true) : step s = .next
    (if s.advanceTimers.windowOut = true then s.advanceTimers.windowExpire else s.advanceTimers) := by
  rw [step_of_idle hp, tick_of_quarter_running hr hq, idleReached_of_busy ht]
  split
  next hw => rw [busTimer_of_window _ hw]
  next hw => rw [busTimer_not_reached (Bool.eq_false_iff.mpr hw)]

/-- R42: a transaction in flight and its window not out, the quarter at its end. -/
theorem step_of_busy_phase (hq : s.rs.quarterLeft ≤ 1) (ht : s.dbc.txn.isSome = true)
    (hw : s.advanceTimers.windowOut = false) : step s = exec .phaseEvent s.advanceTimers := by
  rw [step_of_idle hp, tick_of_phase_alone hr hq hw (idleReached_of_busy ht), exec_phaseEvent_of_high (s := s.advanceTimers) hr]

/-- Assumption log 4: the bus FREE, the quarter at its end and the idle window reached. -/
theorem step_of_free_both (hq : s.rs.quarterLeft ≤ 1) (ht : s.dbc.txn = none) (hi : s.idleReached = true) :
    let s2 : State := { s.advanceTimers with freeIndex := s.freeIndex + 1 }
    step s = .next (if Config.phaseFirst s.freeIndex = true
      then (if s2.phaseEvent.dbc.txn = none then s2.phaseEvent.arbitrate else s2.phaseEvent)
      else s2.arbitrate.phaseEvent) := by
  intro s2
  have ht2 : s2.dbc.txn = none := by
    show s.advanceTimers.dbc.txn = none
    rw [advanceTimers_of_free ht]
    exact ht
  have hw : s2.windowOut = false := windowOut_of_free ht2
  rw [step_of_idle hp, tick_of_both hr hq (.inr hi), hi, busTimer_of_reached (phaseEvent_windowOut hw),
    busTimer_of_reached hw, if_pos ht2]

/-- Assumption log 4: the quarter and the reply window at their end. -/
theorem step_of_window_both (hq : s.rs.quarterLeft ≤ 1) (hw : s.advanceTimers.windowOut = true) :
    let w2 : State := { s.advanceTimers with freeIndex := s.freeIndex + 1 }
    step s = .next (if Config.phaseFirst s.freeIndex = true then w2.phaseEvent.windowExpire
      else w2.windowExpire.phaseEvent) := by
  intro w2
  have hw2 : w2.windowOut = true := hw
  have ht2 : w2.dbc.txn.isSome = true := by
    refine Option.isSome_iff_ne_none.mpr fun hn => ?_
    simp [windowOut_of_free hn] at hw2
  rw [step_of_idle hp, tick_of_both hr hq (.inl hw),
    busTimer_of_window _ ((windowOut_congr (phaseEvent_dbc_of_busy ht2)).trans hw2), busTimer_of_window _ hw2]

end Buses

end Sys2Proof.Machine

open Sys2Proof Sys2Proof.Machine

/-- Settles O2: by what is on the bus, whether the quarter ends, and whether a timer of the bus does. -/
theorem timeOnAnEmptyQueue : Obligations.TimeOnAnEmptyQueue := by
  refine ⟨fun s hp => ⟨fun hr => ?_, fun hr hq ht hi => ?_⟩, fun s u hp hr hq ht hc => ?_, fun s hp hr hq ht hc => ?_,
    fun s hp hr => ⟨fun ht hq hi => ?_, fun ht hq hi => ?_, fun ht hq hi => ?_, fun u ht hq => ?_, fun f ht hq => ?_⟩⟩
  · rw [step_of_idle hp, tick_of_reset hr]
  · rw [step_of_free_running hp hr hq ht, idleReached_of_ne hi, advanceTimers_of_free ht]
    rfl
  · have hb : s.dbc.txn.isSome = true := by rw [ht]; rfl
    have ha := advanceTimers_of_uni ht
    rw [if_pos hc] at ha
    rw [step_of_busy_running hp hr hq hb, advanceTimers_windowOut_of_uni ht]
    refine ⟨fun h => ?_, fun h => ?_⟩
    · rw [if_neg (by simp [hc]; omega), ha]
    · rw [if_pos (by simp [hc, h])]
      exact (exec_replyWindowExpiry_of_high (s := s.advanceTimers) hr).symm
  · rw [step_of_busy_running hp hr hq ht]
    obtain ⟨x, hx⟩ := Option.isSome_iff_exists.mp ht
    cases x with
    | uni u =>
      rw [advanceTimers_windowOut_of_uni hx, hc u hx, advanceTimers_of_transmitting hx (hc u hx)]
      rfl
    | broad f =>
      rw [advanceTimers_windowOut_of_broad hx, advanceTimers_of_broad hx]
      rfl
  · have ha := advanceTimers_of_free ht
    have hw : s.advanceTimers.windowOut = false := by
      rw [ha]
      exact windowOut_of_free ht
    rw [step_of_idle hp, tick_of_phase_alone hr hq hw (idleReached_of_ne hi), ← ha]
    exact (exec_phaseEvent_of_high (s := s.advanceTimers) hr).symm
  · rw [step_of_free_running hp hr hq ht, if_pos ((idleReached_iff s).2 ⟨ht, hi⟩), ← advanceTimers_of_free ht]
    exact (exec_arbiterDecision_of_high (s := s.advanceTimers) hr).symm
  · refine ⟨?_, exec_phaseEvent_of_high hr, exec_arbiterDecision_of_high hr⟩
    have h := step_of_free_both hp hr hq ht ((idleReached_iff s).2 ⟨ht, hi⟩)
    rw [advanceTimers_of_free ht] at h
    exact h
  · have hb : s.dbc.txn.isSome = true := by rw [ht]; rfl
    have ha := advanceTimers_of_uni ht
    have hw := advanceTimers_windowOut_of_uni ht
    refine ⟨fun h => ?_, fun hc hl => ⟨?_, exec_phaseEvent_of_high hr, exec_replyWindowExpiry_of_high hr⟩⟩
    · have hw' : s.advanceTimers.windowOut = false := by
        rw [hw]
        obtain hc | hl := h
        · simp [hc]
        · simp [show u.windowLeft - 1 ≠ 0 by omega]
      rw [step_of_busy_phase hp hr hq hb hw', ← ha]
    · have h := step_of_window_both hp hr hq (by rw [hw, hc]; simp; omega)
      rw [ha] at h
      exact h
  · rw [step_of_busy_phase hp hr hq (by rw [ht]; rfl) (advanceTimers_windowOut_of_broad ht), advanceTimers_of_broad ht]

end

section
/-! SUPPORT. DRAINING entry (R77, R139, R156): what it leaves, and the answers it gives. -/

namespace Sys2Proof.Machine

variable {s : State}

/-! ## What DRAINING entry leaves -/

@[simp] theorem enterDraining_mode (s : State) : s.enterDraining.mode = .draining := by
  rw [enterDraining_eq]
  rfl

/-- R77: no entry is left in the forward queue. -/
theorem enterDraining_pou (s : State) : s.enterDraining.pou = { s.pou with forward := [] } := by
  rw [enterDraining_eq]
  exact (reopenQueued_pou _).trans (answerForward_pou _ .offline)

/-- R139: no originator is left in the commit queue. -/
theorem enterDraining_ce (s : State) : s.enterDraining.ce = { s.ce with queue := [] } := by
  rw [enterDraining_eq]
  exact (reopenQueued_ce ..).trans (by rw [answerForward_ce])

theorem answerForward_stage (st : Status) (o : Originator) : (s.answerForward st).stage o = s.stage o :=
  congrArg (fun v : Vector Stage 4 => v[o]) (answerForward_stages s st)

/-- R139: the queued stages return to OPEN. -/
theorem enterDraining_stage (hn : s.ce.queue.Nodup) (o : Originator) : s.enterDraining.stage o =
    if o ∈ s.ce.queue then { s.stage o with state := .opened, life := some s.params.stageTimeout, request := none }
    else s.stage o := by
  have hq : (s.answerForward .offline).ce.queue = s.ce.queue := by rw [answerForward_ce]
  have h := reopenStages_stage (s.answerForward .offline).ce.queue (hq.symm ▸ hn) o (s.answerForward .offline)
  rw [hq, answerForward_stage, answerForward_params] at h
  rw [enterDraining_eq, ← h, ← hq]
  rfl

/-! ## The answers of DRAINING entry (R156) -/

/-- The answer to the COMMIT of a stage that DRAINING entry reopens (R139). -/
def offlineAnswer (s : State) (o : Originator) : Response :=
  { originator := o, tag := ((s.stage o).request).getD 0, kind := ReqKind.commit.code, status := .offline }

/-- R77: the answers to the forward queue, when all find room. -/
theorem answerForward_queue (st : Status) (hc : s.tp.closing = false)
    (hl : s.tp.queue.length + s.pou.forward.length ≤ 32) :
    (s.answerForward st).tp.queue = s.tp.queue ++ s.pou.forward.map fun e => .response (e.reply st) :=
  responses_join (fun e : FwdEntry => e.reply st) s.pou.forward s hc hl

/-- R139: a queued stage that is reopened answers its COMMIT. -/
theorem reopenStage_tp {o : Originator} (h : (s.stage o).request.isSome = true) :
    (s.reopenStage o).tp = (s.respond (offlineAnswer s o)).tp := by
  obtain ⟨tag, ht⟩ := Option.isSome_iff_exists.mp h
  simp only [State.reopenStage, setStage_tp, answerCommit_of_request ht, offlineAnswer, ht, Option.getD_some]

theorem reopenStages_queue (l : List Originator) : ∀ s : State, l.Nodup →
    (∀ o ∈ l, (s.stage o).request.isSome = true) → s.tp.closing = false → s.tp.queue.length + l.length ≤ 32 →
    (l.foldl State.reopenStage s).tp.queue = s.tp.queue ++ l.map fun o => .response (offlineAnswer s o) := by
  induction l with
  | nil => simp
  | cons a l ih =>
    intro s hn hreq hc hl
    obtain ⟨ha, hn⟩ := List.nodup_cons.mp hn
    obtain ⟨hra, hreq⟩ := List.forall_mem_cons.mp hreq
    rw [List.length_cons] at hl
    have hq : (s.reopenStage a).tp.queue = s.tp.queue ++ [.response (offlineAnswer s a)] := by
      rw [reopenStage_tp hra, respond_of_room _ hc (by omega)]
      rfl
    have hst (o : Originator) (ho : o ∈ l) : (s.reopenStage a).stage o = s.stage o := by
      rw [reopenStage_stage, if_neg (fun h : o = a => ha (h ▸ ho))]
    have hans : l.map (fun o => TrunkFrame.response (offlineAnswer (s.reopenStage a) o)) =
        l.map fun o => .response (offlineAnswer s o) :=
      List.map_congr_left fun o ho => by rw [offlineAnswer, offlineAnswer, hst o ho]
    rw [List.foldl_cons, ih (s.reopenStage a) hn (fun o ho => by rw [hst o ho]; exact hreq o ho) (by simpa using hc)
      (by rw [hq, List.length_append]; simp; omega), hq, hans, List.append_assoc]
    rfl

end Sys2Proof.Machine

open Sys2Proof Sys2Proof.Machine

/-- Settles O29: block by block; the answers join one after another, those to the forward queue first. -/
theorem drainingEntry : Obligations.DrainingEntry := by
  refine ⟨fun s hn => ⟨enterDraining_mode s, ?_, ?_, enterDraining_stage hn, ?_, ?_, ?_, ?_, ?_, ?_⟩,
    fun s hc hl hn hreq => ?_⟩
  · rw [enterDraining_pou]
  · rw [enterDraining_ce]
  iterate 6 simp
  · have hf := answerForward_queue .offline hc (by omega)
    have hq : (s.answerForward .offline).ce.queue = s.ce.queue := by rw [answerForward_ce]
    have h := reopenStages_queue s.ce.queue (s.answerForward .offline) hn
      (fun o ho => by rw [answerForward_stage]; exact hreq o ho) (by simpa using hc)
      (by rw [hf, List.length_append, List.length_map]; omega)
    rw [hf] at h
    rw [enterDraining_eq]
    show ((s.answerForward .offline).ce.queue.foldl State.reopenStage (s.answerForward .offline)).tp.queue = _
    rw [hq, h]
    simp only [offlineAnswer, answerForward_stage]
    rfl

end

section
/-! SUPPORT. A FLUSH (R140, R161 to R163): what its five steps leave, the answers they give, and the mode after them. -/

namespace Sys2Proof.Machine

variable {s : State}

/-! ## The mode (R163) -/

/-- R156: with nothing queued DRAINING entry is the change of the mode. -/
theorem enterDraining_of_idle (hf : s.pou.forward = []) (hq : s.ce.queue = []) :
    s.enterDraining = { s with mode := .draining } := by
  have hp : ({ s.pou with forward := [] } : PointUnit) = s.pou := by rw [← hf]
  have hc : ({ s.ce with queue := [] } : CommitEngine) = s.ce := by rw [← hq]
  have hfwd : s.answerForward .offline = s := by
    simp only [State.answerForward, hf, List.foldl_nil, hp]
  rw [enterDraining_eq, hfwd]
  simp only [State.reopenQueued, hq, List.foldl_nil, hc, State.withMode]

theorem flushMode_of_halted (h : s.mode = .halted) : s.flushMode = s := by
  simp only [State.flushMode, h]

/-- R163: outside HALTED a FLUSH leaves DRAINING, or HALTED where the drain ends at once. -/
theorem flushMode_of_flushed (hm : s.mode ≠ .halted) (hf : s.pou.forward = []) (hq : s.ce.queue = [])
    (hc : s.ce.commit = none) : s.flushMode =
      if s.ce.clearOwed = false ∧ s.dbc.txn = none then
        { s with mode := .halted, exq := { s.exq with flags := s.exq.flags ||| 16#5 } }
      else { s with mode := .draining } := by
  have hend : s.flushMode = ({ s with mode := .draining } : State).endDrain := by
    cases hmode : s.mode with
    | run => simp only [State.flushMode, hmode, enterDraining_of_idle hf hq]
    | draining =>
      have hs : ({ s with mode := .draining } : State) = s := by rw [← hmode]
      simp only [State.flushMode, hmode, hs]
    | halted => exact absurd hmode hm
  rw [hend, endDrain_eq]
  simp only [hc, true_and]

theorem flushRequest_of_managed {rq : Request} (h : Managed readEmptyBody rq () s) :
    flushRequest rq s = finish s (s.flushWork.flushMode.respond (replyTo rq .flush .ok)) :=
  managementRequest_of_managed h

/-! ## The blocks a FLUSH empties (R161) -/

theorem flushWork_pou (s : State) : s.flushWork.pou = { s.pou with forward := [] } := by
  show ((s.answerForward .aborted).abortCommit).abortQueued.pou = _
  rw [abortQueued_pou, abortCommit_pou, answerForward_pou]

theorem flushWork_ce (s : State) : s.flushWork.ce = { s.ce with queue := [], commit := none } := by
  show ((s.answerForward .aborted).abortCommit).abortQueued.ce = _
  rw [abortQueued_ce, abortCommit_ce, answerForward_ce]

theorem flushWork_claims (s : State) : s.flushWork.claims = [] := rfl

/-! ## The stages (R140) -/

/-- R161 step 2: the committing stage is closed. -/
theorem abortCommit_stage (o : Originator) : s.abortCommit.stage o =
    if s.ce.commit.map Commit.originator = some o then {} else s.stage o := by
  unfold State.abortCommit
  split
  next c hc =>
    rw [hc, Option.map_some]
    refine (abortStage_stage _ c.originator o).trans ?_
    rw [dropPending_stage]
    simp only [Option.some.injEq]
  next hc => rw [hc]; rfl

/-- R161 step 3: the queued stages are closed. -/
theorem abortQueued_stage (o : Originator) :
    s.abortQueued.stage o = if o ∈ s.ce.queue then {} else s.stage o :=
  abortStages_stage s.ce.queue o s

/-- R140: after a FLUSH every stage is the empty one. -/
theorem flushWork_stage (h : StageStoreLegal s) (o : Originator) : s.flushWork.stage o = {} := by
  obtain ⟨hl, -, -, hq, hc, -⟩ := h
  have hclosed : s.flushWork.stage o = (s.answerForward .aborted).abortCommit.abortQueued.closeOpen.stage o := rfl
  have hqueue : (s.answerForward .aborted).abortCommit.ce.queue = s.ce.queue := by
    rw [abortCommit_ce_queue, answerForward_ce]
  rw [hclosed, stage_closeOpen, abortQueued_stage, hqueue, abortCommit_stage, answerForward_ce, answerForward_stage]
  by_cases ho : o ∈ s.ce.queue
  · rw [if_pos ho]
    rfl
  · rw [if_neg ho]
    by_cases hco : s.ce.commit.map Commit.originator = some o
    · rw [if_pos hco]
      rfl
    · rw [if_neg hco]
      cases hst : (s.stage o).state with
      | opened => rfl
      | closed => exact stage_eq_of_closed (hl o) hst
      | queued => exact absurd ((hq o).2 hst) ho
      | committing => exact absurd ((hc o).2 hst) hco

/-! ## The nodes (R7, R162) -/

theorem flushWork_nodes_of_idle (h : s.ce.commit = none) : s.flushWork.nodes = s.nodes := by
  show ((s.answerForward .aborted).abortCommit).abortQueued.nodes = _
  have hc : (s.answerForward .aborted).ce.commit = none := by rw [answerForward_ce, h]
  rw [abortQueued_nodes]
  simp only [State.abortCommit, hc, answerForward_nodes]

theorem flushWork_nodes_of_commit {c : Commit} (h : s.ce.commit = some c) : s.flushWork.nodes =
    ((s.answerForward .aborted).dropPending (s.stage c.originator).entries).nodes := by
  show ((s.answerForward .aborted).abortCommit).abortQueued.nodes = _
  have hc : (s.answerForward .aborted).ce.commit = some c := by rw [answerForward_ce, h]
  rw [abortQueued_nodes]
  simp only [State.abortCommit, hc, abortStage_nodes, answerForward_stage]

theorem point_congr {t : State} (h : t.nodes = s.nodes) (n : NodeIdx) (p : PointIdx) : t.point n p = s.point n p :=
  congrArg (fun v : Vector NodeEntry 48 => (v[n]).point p) h

theorem node_congr {t : State} (h : t.nodes = s.nodes) (n : NodeIdx) : t.node n = s.node n :=
  congrArg (fun v : Vector NodeEntry 48 => v[n]) h

/-- R162: of the shadow only the pending values of the ended commit's points change. -/
theorem flushWork_point (n : NodeIdx) (p : PointIdx) : s.flushWork.point n p =
    if ∃ c : Commit, s.ce.commit = some c ∧ ∃ e ∈ (s.stage c.originator).entries, e.node = n ∧ e.point = p
    then { s.point n p with pending := none } else s.point n p := by
  cases hc : s.ce.commit with
  | none =>
    rw [point_congr (flushWork_nodes_of_idle hc), if_neg]
    rintro ⟨c, h, -⟩
    cases h
  | some c =>
    rw [point_congr (flushWork_nodes_of_commit hc), dropPending_point, point_congr (answerForward_nodes ..)]
    simp only [Option.some.injEq, exists_eq_left']

theorem flushWork_node (n : NodeIdx) :
    s.flushWork.node n = { s.node n with points := (s.flushWork.node n).points } := by
  cases hc : s.ce.commit with
  | none => rw [node_congr (flushWork_nodes_of_idle hc)]
  | some c =>
    rw [node_congr (flushWork_nodes_of_commit hc)]
    refine (dropPending_node n _ _).trans ?_
    rw [node_congr (answerForward_nodes ..)]

/-! ## The answers (R82, R140) -/

/-- R140: the responses of a FLUSH, in the order of its steps. -/
def flushAnswers (s : State) : List Response :=
  s.pou.forward.map (fun e => e.reply .aborted) ++
    (s.ce.commit.map fun c => abortedAnswer s c.originator).toList ++ s.ce.queue.map (abortedAnswer s)

theorem sameOut_refl (s : State) : SameOut s s := ⟨rfl, rfl, rfl⟩

theorem answerForward_sameOut (st : Status) (s : State) : SameOut (s.answerForward st)
    ((s.pou.forward.map fun e => e.reply st).foldl (fun s r => s.respond r) s) := by
  rw [List.foldl_map]
  exact sameOut_refl _

/-- R140: the answer depends on no more than the stage. -/
theorem abortedAnswer_congr {t : State} {o : Originator} (h : t.stage o = s.stage o) :
    abortedAnswer t o = abortedAnswer s o := by rw [abortedAnswer, abortedAnswer, h]

theorem abortCommit_sameOut (hr : ∀ c : Commit, s.ce.commit = some c → (s.stage c.originator).request.isSome = true) :
    SameOut s.abortCommit
      ((s.ce.commit.map fun c => abortedAnswer s c.originator).toList.foldl (fun s r => s.respond r) s) := by
  cases hc : s.ce.commit with
  | none =>
    rw [show s.abortCommit = s by simp only [State.abortCommit, hc]]
    exact sameOut_refl s
  | some c =>
    have hst := dropPending_stage (s := s) (s.stage c.originator).entries c.originator
    have h := abortStages_sameOut [c.originator] (s.dropPending (s.stage c.originator).entries)
      (List.nodup_singleton _) (fun o ho => by
        obtain rfl := List.mem_singleton.mp ho
        rw [hst]
        exact hr c hc)
    rw [List.map_singleton, abortedAnswer_congr hst] at h
    rw [show s.abortCommit = { (s.dropPending (s.stage c.originator).entries).abortStage c.originator with
      ce := { ((s.dropPending (s.stage c.originator).entries).abortStage c.originator).ce with commit := none } }
      by simp only [State.abortCommit, hc]]
    refine sameOut_trans h (respond_sameOut _ ?_)
    exact ⟨dropPending_tp .., dropPending_counters .., dropPending_exq ..⟩

theorem abortQueued_sameOut (hn : s.ce.queue.Nodup) (hr : ∀ o ∈ s.ce.queue, (s.stage o).request.isSome = true) :
    SameOut s.abortQueued ((s.ce.queue.map (abortedAnswer s)).foldl (fun s r => s.respond r) s) :=
  abortStages_sameOut s.ce.queue s hn hr

/-- R161: the outputs of a FLUSH's five steps are those of its answers. -/
theorem flushWork_sameOut (h : StageStoreLegal s) :
    SameOut s.flushWork ((flushAnswers s).foldl (fun s r => s.respond r) s) := by
  obtain ⟨hl, -, hn, hq, hc, -⟩ := h
  have hreq (o : Originator) (h : (s.stage o).state = .queued ∨ (s.stage o).state = .committing) :
      (s.stage o).request.isSome = true := by
    obtain ⟨-, -, -, -, hr, -⟩ := hl o
    exact hr.2 h
  have hce : (s.answerForward .aborted).ce = s.ce := answerForward_ce ..
  have hqueue : (s.answerForward .aborted).abortCommit.ce.queue = s.ce.queue := by rw [abortCommit_ce_queue, hce]
  have hqst (o : Originator) (ho : o ∈ s.ce.queue) : (s.answerForward .aborted).abortCommit.stage o = s.stage o := by
    rw [abortCommit_stage, hce, answerForward_stage, if_neg]
    intro hco
    exact absurd (((hq o).1 ho).symm.trans ((hc o).1 hco)) (by decide)
  have h1 := answerForward_sameOut .aborted s
  have h2 := abortCommit_sameOut (s := s.answerForward .aborted) fun c hcm => by
    rw [answerForward_stage]
    exact hreq _ (.inr ((hc c.originator).1 (by rw [← hce, hcm]; rfl)))
  have h3 := abortQueued_sameOut (s := (s.answerForward .aborted).abortCommit) (hqueue ▸ hn) fun o ho => by
    rw [hqueue] at ho
    rw [hqst o ho]
    exact hreq o (.inl ((hq o).1 ho))
  have hcans : (s.ce.commit.map fun c => abortedAnswer (s.answerForward .aborted) c.originator) =
      s.ce.commit.map fun c => abortedAnswer s c.originator :=
    congrArg (s.ce.commit.map ·) (funext fun c => abortedAnswer_congr (answerForward_stage ..))
  have hqans : s.ce.queue.map (abortedAnswer (s.answerForward .aborted).abortCommit) =
      s.ce.queue.map (abortedAnswer s) := List.map_congr_left fun o ho => abortedAnswer_congr (hqst o ho)
  rw [hqueue, hqans] at h3
  rw [hce, hcans] at h2
  have h12 := sameOut_trans h2 (responses_sameOut _ h1)
  have h123 := sameOut_trans h3 (responses_sameOut _ h12)
  rw [flushAnswers, List.foldl_append, List.foldl_append]
  exact h123

/-- R161: the five steps of a FLUSH, block by block. -/
theorem flushWork_eq (h : StageStoreLegal s) : s.flushWork = { s with
    pou := { s.pou with forward := [] }
    claims := []
    ce := { s.ce with queue := [], commit := none }
    stages := Vector.replicate 4 {}
    nodes := s.flushWork.nodes, tp := s.flushWork.tp, counters := s.flushWork.counters, exq := s.flushWork.exq } := by
  have hst : s.flushWork.stages = Vector.replicate 4 {} := by
    refine Vector.ext fun i hi => ?_
    rw [Vector.getElem_replicate]
    exact flushWork_stage h ⟨i, hi⟩
  have blocks (u : State) (hp : u.pou = { s.pou with forward := [] }) (hcl : u.claims = [])
      (hce : u.ce = { s.ce with queue := [], commit := none }) (hst : u.stages = Vector.replicate 4 {})
      (hrs : u.rs = s.rs) (hd : u.dbc = s.dbc) (hm : u.mode = s.mode) (hpa : u.params = s.params)
      (hr : u.resetLow = s.resetLow) (hf : u.freeIndex = s.freeIndex) (hpe : u.pending = s.pending) :
      u = { s with
        pou := { s.pou with forward := [] }
        claims := []
        ce := { s.ce with queue := [], commit := none }
        stages := Vector.replicate 4 {}
        nodes := u.nodes, tp := u.tp, counters := u.counters, exq := u.exq } := by
    rw [← hp, ← hcl, ← hce, ← hst, ← hrs, ← hd, ← hm, ← hpa, ← hr, ← hf, ← hpe]
  exact blocks _ (flushWork_pou s) (flushWork_claims s) (flushWork_ce s) hst (flushWork_rs s) (flushWork_dbc s)
    (flushWork_mode s) (flushWork_params s) (flushWork_resetLow s) (flushWork_freeIndex s) (flushWork_pending s)

end Sys2Proof.Machine

open Sys2Proof Sys2Proof.Machine

/-- Settles O30: the request by its mode; its five steps block by block, and their outputs as those of its answers. -/
theorem flushEmptiesTheWork : Obligations.FlushEmptiesTheWork := by
  refine ⟨fun rq s h => ?_, fun s h hc => ?_⟩
  · intro t u
    have hu : t.flushMode = u := by
      by_cases hm : s.mode = .halted
      · rw [flushMode_of_halted ((flushWork_mode s).trans hm)]
        exact (if_pos hm).symm
      · have hfwd : t.pou.forward = [] := by rw [flushWork_pou]
        have hqueue : t.ce.queue = [] := by rw [flushWork_ce]
        have hcommit : t.ce.commit = none := by rw [flushWork_ce]
        have hends : (t.ce.clearOwed = false ∧ t.dbc.txn = none) ↔ (s.ce.clearOwed = false ∧ s.dbc.txn = none) := by
          rw [flushWork_ce_clearOwed, flushWork_dbc]
        rw [flushMode_of_flushed (fun ht => hm ((flushWork_mode s).symm.trans ht)) hfwd hqueue hcommit]
        exact (if_congr hends rfl rfl).trans (if_neg hm).symm
    rw [← hu]
    exact exec_of_effect (flushRequest_of_managed h)
  · intro t aborted answers lost
    have hans : answers = (flushAnswers s).map .response := by
      simp only [answers, flushAnswers, List.map_append, List.map_map]
      cases s.ce.commit <;> rfl
    have hlost : lost = (flushAnswers s).length - (32 - s.tp.queue.length) := by
      simp only [lost, hans, List.length_map]
    have hout := flushWork_sameOut h
    rw [responses_eq _ s hc] at hout
    obtain ⟨htp, hct, hexq⟩ := hout
    dsimp only at htp hct hexq
    rw [← hans] at htp
    rw [← hlost] at hct hexq
    refine ⟨by rw [htp], (flushWork_tp_closing s).trans hc, ?_, fun c => ?_, hexq, flushWork_point, flushWork_node,
      flushWork_eq h⟩
    · rw [htp]
    · rw [hct]
      cases c <;> rfl

end
